-- ==== Sys2Proof/Word.lean ====
section
/-! DEFINITION. The word types of the DSF oscillator engine: the 64-bit command word and the 32-bit
read response (R78, R80, 20_memory). Register widths stand in Machine/State.lean. -/

namespace Sys2Proof

/-- One command word, bit 63 the most significant (R16, 00_scope; R100, 30_encoding). -/
abbrev Word := BitVec 64

/-- One value on the read-response port, and what WRREG carries (R80, 20_memory; R323, 60_exceptions). -/
abbrev Data := BitVec 32

end Sys2Proof
end

