-- ==== Sys2Proof/Syntax.lean ====
section
/-! DEFINITION. The commands of the engine: the opcodes and formats of R102 and R110
(30_encoding), one constructor of `Instr` per row of spec/opcode_table.json, the register names of
R33 (10_state), the causes of R302 (60_exceptions) and the agents of R13 (00_scope). -/

namespace Sys2Proof

/-- The eleven defined opcodes (R110, 30_encoding). -/
inductive Opcode where
  | nop
  | init
  | setfreq
  | setmod
  | noteon
  | noteoff
  | tick
  | wrreg
  | rdreg
  | wrnorm
  | rdnorm
  deriving DecidableEq, Repr

/-- The eight formats (R102, 30_encoding). -/
inductive Format where
  | z
  | i
  | f
  | m
  | n
  | r
  | q
  | w
  deriving DecidableEq, Repr

/-- One command with its operands, each an unsigned field of the width its format gives it (R102 to
R109, R114, 30_encoding). The register and NORM indices are the raw 8-bit fields: whether an index
names anything is the command's own check, after decode (R115). -/
inductive Instr where
  /-- R270. -/
  | nop
  /-- R140: sample rate, DAC bit depth. -/
  | init (sr : BitVec 32) (db : BitVec 8)
  /-- R161: carrier frequency, modulator frequency, `resetPhase`. -/
  | setfreq (fc fm : BitVec 24) (r : BitVec 1)
  /-- R162: modulator frequency. -/
  | setmod (fm : BitVec 24)
  /-- R240: command byte, note, velocity. -/
  | noteon (cmd note vel : BitVec 8)
  /-- R245: command byte, note, velocity. -/
  | noteoff (cmd note vel : BitVec 8)
  /-- R250. -/
  | tick
  /-- R271: register index, value. -/
  | wrreg (idx : BitVec 8) (val : BitVec 32)
  /-- R272: register index. -/
  | rdreg (idx : BitVec 8)
  /-- R273: NORM index, factor in Q8.16. -/
  | wrnorm (idx : BitVec 8) (val : BitVec 24)
  /-- R274: NORM index. -/
  | rdnorm (idx : BitVec 8)
  deriving DecidableEq, Repr

/-- The opcode of a command. -/
def Instr.opcode : Instr → Opcode
  | .nop => .nop
  | .init _ _ => .init
  | .setfreq _ _ _ => .setfreq
  | .setmod _ => .setmod
  | .noteon _ _ _ => .noteon
  | .noteoff _ _ _ => .noteoff
  | .tick => .tick
  | .wrreg _ _ => .wrreg
  | .rdreg _ => .rdreg
  | .wrnorm _ _ => .wrnorm
  | .rdnorm _ => .rdnorm

/-- The twenty registers, in the order of their indices 0x00 to 0x13 (R33, 10_state). -/
inductive Reg where
  | ctrl
  | attackRate
  | decayRate
  | sustainLevel
  | shapeIn
  | status
  | noteState
  | activeNote
  | sampleRate
  | dacBits
  | outScale
  | carStep
  | modStep
  | carAcc
  | modAcc
  | envMode
  | envLevel
  | envStepcnt
  | lastCode
  | lastA
  deriving DecidableEq, Repr

/-- The causes of IllegalCommand (R302, 60_exceptions); their codes are in Machine/Flags.lean. -/
inductive Cause where
  /-- Cause 1: OP in 0x0B to 0xFF (R112). -/
  | undefinedOpcode
  /-- Cause 2: a reserved bit of the format is 1 (R111). -/
  | reservedBits
  /-- Cause 3: an undefined register index, or a write to a read-only register (R271, R272). -/
  | badRegister
  /-- Cause 4: SR = 0 or DB outside 1 to 16 (R142). -/
  | badInitOperand
  /-- Cause 5: a NORM index above 99 (R273, R274). -/
  | badNormIndex
  deriving DecidableEq, Repr

/-- The two agents that issue commands (R13, 00_scope). -/
inductive Agent where
  | control
  | ticker
  deriving DecidableEq, Repr

end Sys2Proof
end

