-- ==== Sys2Proof/Decode.lean ====
section
/-! DEFINITION. Decoding (R115, 30_encoding), total on every 64-bit word: the opcode byte, the
format's reserved mask, then the fields. A word that spells no command is rejected by its cause
(R302, 60_exceptions). After it the encoder, from the words of R116. -/

namespace Sys2Proof

/-- `w[lo + n - 1 : lo]`, the `n`-bit field whose lowest bit is `lo` (R16, 00_scope). -/
def field (w : Word) (lo n : Nat) : BitVec n := w.extractLsb' lo n

/-- The opcode byte OP, bits 63 to 56 (R101). -/
def opcodeByte (w : Word) : BitVec 8 := field w 56 8

/-- The opcode map of R110. -/
def Opcode.byte : Opcode → BitVec 8
  | .nop => 0x00#8
  | .init => 0x01#8
  | .setfreq => 0x02#8
  | .setmod => 0x03#8
  | .noteon => 0x04#8
  | .noteoff => 0x05#8
  | .tick => 0x06#8
  | .wrreg => 0x07#8
  | .rdreg => 0x08#8
  | .wrnorm => 0x09#8
  | .rdnorm => 0x0A#8

/-- The opcode map of R110 read the other way; bytes 0x0B to 0xFF name no opcode (R112). -/
def Opcode.ofByte (b : BitVec 8) : Option Opcode :=
  match b.toNat with
  | 0x00 => some .nop
  | 0x01 => some .init
  | 0x02 => some .setfreq
  | 0x03 => some .setmod
  | 0x04 => some .noteon
  | 0x05 => some .noteoff
  | 0x06 => some .tick
  | 0x07 => some .wrreg
  | 0x08 => some .rdreg
  | 0x09 => some .wrnorm
  | 0x0A => some .rdnorm
  | _ => none

/-- The format column of R110. -/
def Opcode.format : Opcode → Format
  | .nop => .z
  | .init => .i
  | .setfreq => .f
  | .setmod => .m
  | .noteon => .n
  | .noteoff => .n
  | .tick => .z
  | .wrreg => .r
  | .rdreg => .q
  | .wrnorm => .w
  | .rdnorm => .q

/-- The reserved bits of each format, which must be zero (R102, R111; the masks of R115). -/
def Format.reservedMask : Format → Word
  | .z => 0x00FFFFFFFFFFFFFF#64
  | .i => 0x0000FFFF00000000#64
  | .f => 0x00FE000000000000#64
  | .m => 0x00FFFFFFFF000000#64
  | .n => 0x00FFFFFFFF000000#64
  | .r => 0x0000FFFF00000000#64
  | .q => 0x0000FFFFFFFFFFFF#64
  | .w => 0x0000FFFFFF000000#64

/-- The command of a given opcode whose operands are the fields of `w` (R103 to R109). -/
def Opcode.read (op : Opcode) (w : Word) : Instr :=
  match op with
  | .nop => .nop
  | .init => .init (field w 0 32) (field w 48 8)
  | .setfreq => .setfreq (field w 24 24) (field w 0 24) (field w 48 1)
  | .setmod => .setmod (field w 0 24)
  | .noteon => .noteon (field w 16 8) (field w 8 8) (field w 0 8)
  | .noteoff => .noteoff (field w 16 8) (field w 8 8) (field w 0 8)
  | .tick => .tick
  | .wrreg => .wrreg (field w 48 8) (field w 0 32)
  | .rdreg => .rdreg (field w 48 8)
  | .wrnorm => .wrnorm (field w 48 8) (field w 0 24)
  | .rdnorm => .rdnorm (field w 48 8)

/-- The decode algorithm of R115: cause 1 before cause 2 (R303); operand checks belong to the
commands and come after it. -/
def decode (w : Word) : Except Cause Instr :=
  match Opcode.ofByte (opcodeByte w) with
  | none => .error .undefinedOpcode
  | some op =>
      if w &&& op.format.reservedMask = 0#64 then .ok (op.read w) else .error .reservedBits

/-- A field placed with its lowest bit at `lo`, as the words of R116 write it. -/
def place {n : Nat} (v : BitVec n) (lo : Nat) : Word := v.setWidth 64 <<< lo

/-- The word of a command (R116, 30_encoding). -/
def encode : Instr → Word
  | .nop => place (Opcode.byte .nop) 56
  | .init sr db => place (Opcode.byte .init) 56 ||| place db 48 ||| place sr 0
  | .setfreq fc fm r =>
      place (Opcode.byte .setfreq) 56 ||| place r 48 ||| place fc 24 ||| place fm 0
  | .setmod fm => place (Opcode.byte .setmod) 56 ||| place fm 0
  | .noteon cmd note vel =>
      place (Opcode.byte .noteon) 56 ||| place cmd 16 ||| place note 8 ||| place vel 0
  | .noteoff cmd note vel =>
      place (Opcode.byte .noteoff) 56 ||| place cmd 16 ||| place note 8 ||| place vel 0
  | .tick => place (Opcode.byte .tick) 56
  | .wrreg idx val => place (Opcode.byte .wrreg) 56 ||| place idx 48 ||| place val 0
  | .rdreg idx => place (Opcode.byte .rdreg) 56 ||| place idx 48
  | .wrnorm idx val => place (Opcode.byte .wrnorm) 56 ||| place idx 48 ||| place val 0
  | .rdnorm idx => place (Opcode.byte .rdnorm) 56 ||| place idx 48

/-- What the decoder reads from a command whose bits are `w`, numbered as the opcode table numbers
them. The engine's words are 64 bits whole (R78, R100): bits above `nbits` are 0. -/
def decodeTableWord (nbits w : Nat) : Option Instr :=
  match decode (BitVec.ofNat 64 (w % 2 ^ nbits)) with
  | .ok i => some i
  | .error _ => none

end Sys2Proof
end

