-- ==== Sys2Proof/Config.lean ====
section
/-! DEFINITION. The implementation parameters of R14 (00_scope), each with the value R14 gives it.
Where a parameter is a width, the bit-vector types of the model carry it as a literal; the constant
here is R14's name for it. The one value the spec leaves without meaning stands here as an opaque
function (log 9). -/

namespace Sys2Proof.Config

/-- `ACC_BITS`, R14: width of a phase accumulator. -/
abbrev accBits : Nat := 32

/-- `TABLE_SIZE`, R14: entries of the sine table. -/
abbrev tableSize : Nat := 256

/-- `INDEX_BITS`, R14: accumulator bits that index the table, bits 31 to 24. -/
abbrev indexBits : Nat := 8

/-- `FRAC`, R14: fraction bits of every fixed-point value. -/
abbrev frac : Nat := 16

/-- 1.0 in Q16, that is 2 to the power `FRAC` (R21). -/
abbrev one : Nat := 65536

/-- `A_MAX`, R14: the largest clamped shape parameter. -/
abbrev aMax : Nat := 65535

/-- `NORM_LEVELS`, R14: entries of the normalisation table. -/
abbrev normLevels : Nat := 100

/-- `NORM_BITS`, R14: width of a normalisation entry. -/
abbrev normBits : Nat := 24

/-- Smallest legal `DAC_BITS`, R14. -/
abbrev dacBitsMin : Nat := 1

/-- Largest legal `DAC_BITS`, R14. -/
abbrev dacBitsMax : Nat := 16

/-- Smallest legal `SR`, R14. -/
abbrev rateMin : Nat := 1

/-- `FREQ_BITS`, R14: width of a frequency operand. -/
abbrev freqBits : Nat := 24

/-- `FINE_MUL`, R14: the fine mode's factor on the divisor. -/
abbrev fineMul : Nat := 10

/-- `RATE_BITS`, R14: width of the attack and decay rates. -/
abbrev rateBits : Nat := 16

/-- `STEPCNT_BITS`, R14: width of the envelope's tick counter. -/
abbrev stepcntBits : Nat := 32

/-- The envelope's two open parameters (R14; I6, 93_implementation_defined): the fixed step and the
maximum bound, both in U1.16. The envelope functions take them as an argument (log 7). -/
structure EnvParams where
  step : Nat
  max : Nat
  deriving DecidableEq, Repr

/-- The values R14 admits: 1 ≤ ENV_STEP ≤ ENV_MAX ≤ 65536. -/
abbrev EnvParams.Legal (p : EnvParams) : Prop :=
  1 ≤ p.step ∧ p.step ≤ p.max ∧ p.max ≤ one

/-- `ENV_STEP` and `ENV_MAX` with the values R14 gives them: 2^-8 and 1.0. -/
def env : EnvParams where
  step := 256
  max := 65536

/-- `NOTE_OFF_POLICY`, R15: GATE is its only defined value, so any other value cannot be written
down and a model given one does not build (log 8). -/
inductive NoteOffPolicy where
  | gate
  deriving DecidableEq, Repr

/-- The policy of this engine (R14, R15). -/
def noteOffPolicy : NoteOffPolicy := .gate

/-- What every entry of the normalisation RAM holds at reset: 65536, that is 1.0 (R77, 20_memory;
R340, 70_reset_and_hazards). It is what an unlisted index of the RAM reads as (log 5). -/
def normReset : BitVec 24 := 65536#24

/-- FREE VALUE (log 9): the phase step of a frequency when SAMPLE_RATE is 0. R42 and R142 rule such
a state out, and the quotient of R160 has no meaning in it; nothing can be proved about this value. -/
opaque stepAtRateZero : BitVec 24 → BitVec 32

end Sys2Proof.Config
end

