-- ==== Sys2Proof/Machine/State.lean ====
section
/-! DEFINITION. The state of the engine: the registers of R33 (10_state) with their widths and the
reset values of R55, the normalisation RAM of R76 (20_memory), and what stands at its three ports
(R322 to R324, 60_exceptions). The sine ROM is a constant, in Machine/Tables.lean (R75; log 6). -/

namespace Sys2Proof.Machine

/-- The envelope's mode; ENV_MODE encodes it in two bits as 0, 1, 2, 3 (R47, 10_state; R210,
43_envelope). No rule writes Release (R219). -/
inductive EnvMode where
  | attack
  | decay
  | sustain
  | release
  deriving DecidableEq, Repr

/-- The normalisation RAM (R76, 20_memory): index and 24-bit entry. In canonical form
(`Memory.wf`) the indices rise strictly, lie below 100, and no entry is listed that equals
`Config.normReset`, which an unlisted index reads as (log 5). -/
abbrev Memory := List (Nat × BitVec 24)

/-- What one step finds at the engine's inputs (R82, 20_memory; R342, 70_reset_and_hazards; log 1,
log 4): the next word of an agent, or the reset signal, during which a word of an agent may be
delivered and lost. -/
inductive PortEvent where
  | word (a : Agent)
  | reset (lost : Option Agent)
  deriving DecidableEq, Repr

/-- Everything the spec gives the engine (R33, R76), and its ports. -/
structure State where
  /-- CTRL: INVERT 0, SRC 1, NORM_EN 2, FINE 3 (R34). -/
  ctrl : BitVec 4
  /-- ATTACK_RATE (R35). -/
  attackRate : BitVec 16
  /-- DECAY_RATE (R36). -/
  decayRate : BitVec 16
  /-- SUSTAIN_LEVEL, U1.16 (R37). -/
  sustainLevel : BitVec 17
  /-- SHAPE_IN, S16.16, the raw bits (R38). -/
  shapeIn : BitVec 32
  /-- STATUS: ILL 0, CAUSE 15 to 8 (R39). -/
  status : BitVec 16
  /-- NOTE_STATE: VEL 7 to 0, NOTE 15 to 8, CMD 23 to 16, ACTIVE 24 (R40). -/
  noteState : BitVec 25
  /-- ACTIVE_NOTE (R41). -/
  activeNote : BitVec 8
  /-- SAMPLE_RATE (R42). -/
  sampleRate : BitVec 32
  /-- DAC_BITS (R43). -/
  dacBits : BitVec 5
  /-- OUT_SCALE, which is also OUT_OFFSET (R44). -/
  outScale : BitVec 15
  /-- CAR_STEP (R45). -/
  carStep : BitVec 32
  /-- MOD_STEP (R45). -/
  modStep : BitVec 32
  /-- CAR_ACC (R46). -/
  carAcc : BitVec 32
  /-- MOD_ACC (R46). -/
  modAcc : BitVec 32
  /-- ENV_MODE (R47). -/
  envMode : EnvMode
  /-- ENV_LEVEL, U1.16 (R48). -/
  envLevel : BitVec 17
  /-- ENV_STEPCNT (R49). -/
  envStepcnt : BitVec 32
  /-- LAST_CODE (R50). -/
  lastCode : BitVec 16
  /-- LAST_A (R51). -/
  lastA : BitVec 16
  /-- NORM (R76, 20_memory). -/
  norm : Memory
  /-- The write events made on the DAC port, oldest first (R322, 60_exceptions; log 3). -/
  dacOut : List (BitVec 16)
  /-- The responses made on the read-response port, oldest first (R323, 60_exceptions; log 3). -/
  rspOut : List (BitVec 32)
  /-- The CONTROL agent's words not yet delivered, in its order (R13, 00_scope; log 1). -/
  control : List Word
  /-- The TICKER agent's words not yet delivered, in its order (R13, 00_scope; log 1). -/
  ticker : List Word
  /-- What the coming steps find at the inputs, in order: the merge of the two streams and the
  reset signal (R82, 20_memory; R342; log 1). -/
  arrivals : List PortEvent
  deriving DecidableEq, Repr

/-- The engine has no fault: every word either executes or raises IllegalCommand, and nothing stops
or hangs it (R253, R301, R324, R345). So no meaning can raise one, which is exact and therefore
safe (log 10). -/
inductive Fault where
  deriving DecidableEq, Repr

/-- Why a step has no meaning. -/
inductive Refusal where
  /-- Raised only by an arm of `exec` for an instruction without a meaning, of which there is none
  left. Safe: it stops where the engine would go on. -/
  | notModelled (mnemonic : String)
  deriving DecidableEq, Repr

/-- The engine right after reset: R55 (10_state) and R340 (70_reset_and_hazards) for every register
and for NORM. Nothing has been written to a port (R343), and the agents have issued nothing
(log 2, log 3). -/
def State.reset : State where
  ctrl := 0#4
  attackRate := 1#16
  decayRate := 1#16
  sustainLevel := 0#17
  shapeIn := 0#32
  status := 0#16
  noteState := 0#25
  activeNote := 0#8
  sampleRate := 40000#32
  dacBits := 12#5
  outScale := 2047#15
  carStep := 0#32
  modStep := 0#32
  carAcc := 0#32
  modAcc := 0#32
  envMode := .attack
  envLevel := 0#17
  envStepcnt := 0#32
  lastCode := 0#16
  lastA := 0#16
  norm := []
  dacOut := []
  rspOut := []
  control := []
  ticker := []
  arrivals := []

end Sys2Proof.Machine
end

