-- ==== Sys2Proof/Machine/Flags.lean ====
section
/-! DEFINITION. The one-bit flags of R52 (10_state) and the fields of the registers that hold them:
CTRL (R34), STATUS (R39) and NOTE_STATE (R40), with the cause codes of R302 (60_exceptions) and the
mode codes of R47. No command sets a flag as a side effect of arithmetic (R52). -/

namespace Sys2Proof

/-- The codes of R302 (60_exceptions). -/
def Cause.code : Cause → BitVec 8
  | .undefinedOpcode => 1#8
  | .reservedBits => 2#8
  | .badRegister => 3#8
  | .badInitOperand => 4#8
  | .badNormIndex => 5#8

end Sys2Proof

namespace Sys2Proof.Machine

/-- CTRL.INVERT (R34). -/
def State.invert (s : State) : Bool := s.ctrl.getLsbD 0

/-- CTRL.SRC (R34). -/
def State.src (s : State) : Bool := s.ctrl.getLsbD 1

/-- CTRL.NORM_EN (R34). -/
def State.normEn (s : State) : Bool := s.ctrl.getLsbD 2

/-- CTRL.FINE (R34). -/
def State.fine (s : State) : Bool := s.ctrl.getLsbD 3

/-- STATUS.ILL (R39). -/
def State.ill (s : State) : Bool := s.status.getLsbD 0

/-- STATUS.CAUSE (R39). -/
def State.cause (s : State) : BitVec 8 := s.status.extractLsb' 8 8

/-- STATUS with ILL = 1 and the given CAUSE; bits 7 to 1 read 0 (R39). -/
def statusOf (cause : BitVec 8) : BitVec 16 := cause.setWidth 16 <<< 8 ||| 1#16

/-- NOTE_STATE.ACTIVE, the note gate (R40). -/
def State.active (s : State) : Bool := s.noteState.getLsbD 24

/-- NOTE_STATE.CMD (R40). -/
def State.noteCmd (s : State) : BitVec 8 := s.noteState.extractLsb' 16 8

/-- NOTE_STATE.NOTE (R40). -/
def State.noteNote (s : State) : BitVec 8 := s.noteState.extractLsb' 8 8

/-- NOTE_STATE.VEL (R40). -/
def State.noteVel (s : State) : BitVec 8 := s.noteState.extractLsb' 0 8

/-- NOTE_STATE with the given fields (R40). -/
def noteStateOf (active : Bool) (cmd note vel : BitVec 8) : BitVec 25 :=
  (BitVec.ofBool active).setWidth 25 <<< 24 ||| cmd.setWidth 25 <<< 16 |||
    note.setWidth 25 <<< 8 ||| vel.setWidth 25

/-- ENV_MODE as software reads it (R47). -/
def EnvMode.code : EnvMode → BitVec 2
  | .attack => 0#2
  | .decay => 1#2
  | .sustain => 2#2
  | .release => 3#2

end Sys2Proof.Machine
end

