-- ==== Sys2Proof/Machine/Ops.lean ====
section
/-! DEFINITION. The named operations over registers, the normalisation RAM and the ports: the
primitives of R18 to R20 (00_scope), raising IllegalCommand as one shared operation (R301,
60_exceptions), clearing its record (R39, R306), the command port (R82, 20_memory) and the reset
signal (R342, 70_reset_and_hazards). -/

namespace Sys2Proof.Machine

/-- `reg[CTRL] <- v`. -/
def State.setCtrl (s : State) (v : BitVec 4) : State :=
  { s with ctrl := v }

/-- `reg[ATTACK_RATE] <- v`. -/
def State.setAttackRate (s : State) (v : BitVec 16) : State :=
  { s with attackRate := v }

/-- `reg[DECAY_RATE] <- v`. -/
def State.setDecayRate (s : State) (v : BitVec 16) : State :=
  { s with decayRate := v }

/-- `reg[SUSTAIN_LEVEL] <- v`. -/
def State.setSustainLevel (s : State) (v : BitVec 17) : State :=
  { s with sustainLevel := v }

/-- `reg[SHAPE_IN] <- v`. -/
def State.setShapeIn (s : State) (v : BitVec 32) : State :=
  { s with shapeIn := v }

/-- `reg[STATUS] <- v`. -/
def State.setStatus (s : State) (v : BitVec 16) : State :=
  { s with status := v }

/-- `reg[NOTE_STATE] <- v`. -/
def State.setNoteState (s : State) (v : BitVec 25) : State :=
  { s with noteState := v }

/-- `reg[ACTIVE_NOTE] <- v`. -/
def State.setActiveNote (s : State) (v : BitVec 8) : State :=
  { s with activeNote := v }

/-- `reg[SAMPLE_RATE] <- rate`, `reg[DAC_BITS] <- bits`, `reg[OUT_SCALE] <- scale`. -/
def State.setFormat (s : State) (rate : BitVec 32) (bits : BitVec 5) (scale : BitVec 15) : State :=
  { s with sampleRate := rate, dacBits := bits, outScale := scale }

/-- `reg[CAR_STEP] <- v`. -/
def State.setCarStep (s : State) (v : BitVec 32) : State :=
  { s with carStep := v }

/-- `reg[MOD_STEP] <- v`. -/
def State.setModStep (s : State) (v : BitVec 32) : State :=
  { s with modStep := v }

/-- `reg[CAR_ACC] <- car`, `reg[MOD_ACC] <- mod`. -/
def State.setPhase (s : State) (car : BitVec 32) (mod : BitVec 32) : State :=
  { s with carAcc := car, modAcc := mod }

/-- `reg[ENV_MODE] <- mode`, `reg[ENV_LEVEL] <- level`, `reg[ENV_STEPCNT] <- cnt`: the envelope's triple (R210, 43_envelope). -/
def State.setEnv (s : State) (mode : EnvMode) (level : BitVec 17) (cnt : BitVec 32) : State :=
  { s with envMode := mode, envLevel := level, envStepcnt := cnt }

/-- `reg[LAST_CODE] <- v`. -/
def State.setLastCode (s : State) (v : BitVec 16) : State :=
  { s with lastCode := v }

/-- `reg[LAST_A] <- v`. -/
def State.setLastA (s : State) (v : BitVec 16) : State :=
  { s with lastA := v }

/-- The normalisation RAM becomes `m`. -/
def State.setNorm (s : State) (m : Memory) : State :=
  { s with norm := m }

/-- `EmitDAC(code)`: one write event on the DAC port (R20, 00_scope; R322, 60_exceptions). -/
def State.emitDac (s : State) (code : BitVec 16) : State :=
  { s with dacOut := s.dacOut ++ [code] }

/-- `EmitRSP(v)`: one value on the read-response port (R20, 00_scope; R323, 60_exceptions). -/
def State.emitRsp (s : State) (v : BitVec 32) : State :=
  { s with rspOut := s.rspOut ++ [v] }

/-- What is left at the command port (R82, 20_memory; R324, 60_exceptions). -/
def State.setInput (s : State) (c : List Word) (t : List Word) (es : List PortEvent) : State :=
  { s with control := c, ticker := t, arrivals := es }

/-- `MemRead(NORM, k)` (R19, 00_scope): the entry listed for `k`, else the reset entry (R77,
20_memory; log 5). -/
def Memory.read : Memory → Nat → BitVec 24
  | [], _ => Config.normReset
  | (a, v) :: m, k => if a = k then v else Memory.read m k

/-- The RAM without an entry for `k`. -/
def Memory.erase : Memory → Nat → Memory
  | [], _ => []
  | (a, v) :: m, k => if a = k then Memory.erase m k else (a, v) :: Memory.erase m k

/-- An entry put in its place by index. -/
def Memory.insert : Memory → Nat → BitVec 24 → Memory
  | [], k, v => [(k, v)]
  | (a, w) :: m, k, v => if k < a then (k, v) :: (a, w) :: m else (a, w) :: Memory.insert m k v

/-- `MemWrite(NORM, k, v)` (R19, 00_scope). Writing the value an unlisted index reads as lists
nothing, so equal contents are equal data (log 5). -/
def Memory.write (m : Memory) (k : Nat) (v : BitVec 24) : Memory :=
  if v = Config.normReset then Memory.erase m k else Memory.insert (Memory.erase m k) k v

/-- The canonical form from a bound on: every index is at least `lo` and below 100, the indices
rise strictly, and no entry equals the reset entry. -/
def Memory.wfFrom : Nat → Memory → Bool
  | _, [] => true
  | lo, (a, v) :: m =>
      decide (lo ≤ a) && (decide (a < Config.normLevels) &&
        (decide (v ≠ Config.normReset) && Memory.wfFrom (a + 1) m))

/-- The canonical form of the normalisation RAM (R76: indices 0 to 99). -/
def Memory.wf (m : Memory) : Bool := Memory.wfFrom 0 m

/-- A read opcode, RDREG or RDNORM: the ones that answer on the response port (R276,
45_register_access). -/
def isReadOpcode (op : BitVec 8) : Bool :=
  decide (op = Opcode.byte .rdreg) || decide (op = Opcode.byte .rdnorm)

/-- `raise IllegalCommand(cause)` in a word whose opcode byte is `op` (R301, 60_exceptions): STATUS
records it, a read opcode still gets its one response, 0 (R276; log 12), and nothing else changes.
There is no return from it (R305, R306). -/
def raiseIllegal (op : BitVec 8) (c : Cause) (s : State) : State :=
  let t := s.setStatus (statusOf c.code)
  if isReadOpcode op then t.emitRsp 0#32 else t

/-- The clear of the record by `WRREG STATUS` (R39, 10_state; R306, 60_exceptions): writing 1 to
bit 0 zeroes ILL and CAUSE, writing 0 to it changes nothing. -/
def writeStatus (v : BitVec 32) (s : State) : State :=
  if v.getLsbD 0 then s.setStatus 0#16 else s

/-- What a step finds at the engine's inputs, with the state after taking it from there. -/
inductive Arrival where
  /-- No word and no reset signal. -/
  | idle (t : State)
  /-- A delivered word. -/
  | word (w : Word) (t : State)
  /-- The reset signal. -/
  | reset (t : State)
  deriving DecidableEq, Repr

/-- The next undelivered word of an agent (R82, 20_memory). -/
def nextWord (a : Agent) (s : State) : Option Word :=
  match a with
  | .control => s.control.head?
  | .ticker => s.ticker.head?

/-- The inputs with an agent's next word taken off its stream and `es` still to arrive. -/
def dropWord (a : Agent) (es : List PortEvent) (s : State) : State :=
  match a with
  | .control => s.setInput s.control.tail s.ticker es
  | .ticker => s.setInput s.control s.ticker.tail es

/-- The command port (R82, 20_memory; R324, 60_exceptions; log 1): the next arrival says whose word
comes; each stream is delivered from its front, so each agent's own order is kept. An agent with
nothing left delivers nothing. Under the reset signal a word may be lost (R342; log 4). -/
def arrival (s : State) : Arrival :=
  match s.arrivals with
  | [] => .idle s
  | .word a :: es =>
      match nextWord a s with
      | none => .idle (s.setInput s.control s.ticker es)
      | some w => .word w (dropWord a es s)
  | .reset none :: es => .reset (s.setInput s.control s.ticker es)
  | .reset (some a) :: es => .reset (dropWord a es s)

/-- The reset signal (R340, R342, 70_reset_and_hazards): every register and NORM take their reset
values. What has left by the ports, and what is still to come, lies outside the engine and stays
(log 4). -/
def applyReset (s : State) : State :=
  { State.reset with
    dacOut := s.dacOut
    rspOut := s.rspOut
    control := s.control
    ticker := s.ticker
    arrivals := s.arrivals }

/-- The inputs with one more word of CONTROL in front, arriving next (log 2). -/
def queueWord (w : Word) (s : State) : State :=
  s.setInput (w :: s.control) s.ticker (.word .control :: s.arrivals)

end Sys2Proof.Machine
end

