-- ==== Sys2Proof/Machine/Operands.lean ====
section
/-! DEFINITION. What the commands' operands name: the register map of R33 (10_state), what a
register reads as and what a write stores (R34 to R39, R271, R272), the operand checks of INIT and
of the NORM index (R142; R273, R274), the output scale (R141), and the phase step of a frequency
operand (R160, R163, 41_frequency). -/

namespace Sys2Proof

/-- The register map of R33; indices 0x14 to 0xFF name no register. -/
def Reg.ofIndex (idx : BitVec 8) : Option Reg :=
  match idx.toNat with
  | 0x00 => some .ctrl
  | 0x01 => some .attackRate
  | 0x02 => some .decayRate
  | 0x03 => some .sustainLevel
  | 0x04 => some .shapeIn
  | 0x05 => some .status
  | 0x06 => some .noteState
  | 0x07 => some .activeNote
  | 0x08 => some .sampleRate
  | 0x09 => some .dacBits
  | 0x0A => some .outScale
  | 0x0B => some .carStep
  | 0x0C => some .modStep
  | 0x0D => some .carAcc
  | 0x0E => some .modAcc
  | 0x0F => some .envMode
  | 0x10 => some .envLevel
  | 0x11 => some .envStepcnt
  | 0x12 => some .lastCode
  | 0x13 => some .lastA
  | _ => none

/-- The register map of R33 read the other way. -/
def Reg.index : Reg → BitVec 8
  | .ctrl => 0x00#8
  | .attackRate => 0x01#8
  | .decayRate => 0x02#8
  | .sustainLevel => 0x03#8
  | .shapeIn => 0x04#8
  | .status => 0x05#8
  | .noteState => 0x06#8
  | .activeNote => 0x07#8
  | .sampleRate => 0x08#8
  | .dacBits => 0x09#8
  | .outScale => 0x0A#8
  | .carStep => 0x0B#8
  | .modStep => 0x0C#8
  | .carAcc => 0x0D#8
  | .modAcc => 0x0E#8
  | .envMode => 0x0F#8
  | .envLevel => 0x10#8
  | .envStepcnt => 0x11#8
  | .lastCode => 0x12#8
  | .lastA => 0x13#8

end Sys2Proof

namespace Sys2Proof.Machine

/-- What a register reads as: its field, zero-extended to 32 bits (R33, 10_state; R272,
45_register_access). -/
def readReg (r : Reg) (s : State) : Data :=
  match r with
  | .ctrl => s.ctrl.setWidth 32
  | .attackRate => s.attackRate.setWidth 32
  | .decayRate => s.decayRate.setWidth 32
  | .sustainLevel => s.sustainLevel.setWidth 32
  | .shapeIn => s.shapeIn
  | .status => s.status.setWidth 32
  | .noteState => s.noteState.setWidth 32
  | .activeNote => s.activeNote.setWidth 32
  | .sampleRate => s.sampleRate
  | .dacBits => s.dacBits.setWidth 32
  | .outScale => s.outScale.setWidth 32
  | .carStep => s.carStep
  | .modStep => s.modStep
  | .carAcc => s.carAcc
  | .modAcc => s.modAcc
  | .envMode => s.envMode.code.setWidth 32
  | .envLevel => s.envLevel.setWidth 32
  | .envStepcnt => s.envStepcnt
  | .lastCode => s.lastCode.setWidth 32
  | .lastA => s.lastA.setWidth 32

/-- What SUSTAIN_LEVEL stores: the value, read unsigned, cut to 1.0 (R37, 10_state). -/
def clampLevel (v : Data) : BitVec 17 := BitVec.ofNat 17 (min v.toNat Config.one)

/-- What a WRREG to a register does, with `none` for a read-only one (R271, 45_register_access; R33
to R39, 10_state). Bits beyond a field are ignored, except that SUSTAIN_LEVEL clamps. -/
def writeReg (r : Reg) (v : Data) (s : State) : Option State :=
  match r with
  | .ctrl => some (s.setCtrl (v.setWidth 4))
  | .attackRate => some (s.setAttackRate (v.setWidth 16))
  | .decayRate => some (s.setDecayRate (v.setWidth 16))
  | .sustainLevel => some (s.setSustainLevel (clampLevel v))
  | .shapeIn => some (s.setShapeIn v)
  | .status => some (writeStatus v s)
  | .noteState => none
  | .activeNote => none
  | .sampleRate => none
  | .dacBits => none
  | .outScale => none
  | .carStep => none
  | .modStep => none
  | .carAcc => none
  | .modAcc => none
  | .envMode => none
  | .envLevel => none
  | .envStepcnt => none
  | .lastCode => none
  | .lastA => none

/-- INIT's operand check: SR at least 1, DB 1 to 16 (R142, 40_init). -/
def initLegal (sr : BitVec 32) (db : BitVec 8) : Bool :=
  decide (Config.rateMin ≤ sr.toNat) &&
    (decide (Config.dacBitsMin ≤ db.toNat) && decide (db.toNat ≤ Config.dacBitsMax))

/-- A NORM index, 0 to 99 (R273, R274, 45_register_access). -/
def normLegal (idx : BitVec 8) : Bool := decide (idx.toNat < Config.normLevels)

/-- OUT_SCALE of a depth: (2^DB - 1) / 2 rounded down (R141, 40_init). -/
def outScaleOf (db : BitVec 8) : BitVec 15 := BitVec.ofNat 15 ((2 ^ db.toNat - 1) / 2)

/-- The divisor D of R160: SAMPLE_RATE, times `FINE_MUL` when CTRL.FINE is 1 (R163). -/
def phaseDivisor (s : State) : Nat :=
  s.sampleRate.toNat * (if s.fine then Config.fineMul else 1)

/-- `phase_step(f)` (R160, 41_frequency): f · 2^32 / D rounded down, modulo 2^32. SAMPLE_RATE is
never 0 (R42); in a state where it is, the value is free (log 9). -/
def phaseStep (f : BitVec 24) (s : State) : BitVec 32 :=
  if s.sampleRate = 0#32 then Config.stepAtRateZero f
  else BitVec.ofNat 32 (f.toNat * 2 ^ 32 / phaseDivisor s)

end Sys2Proof.Machine
end

