-- ==== Sys2Proof/Machine/Access.lean ====
section
/-! DEFINITION. NOP and the register and table access commands (R270 to R276,
45_register_access). -/

namespace Sys2Proof.Machine

/-- NOP (R270; R113, 30_encoding): no effect. -/
def execNop (s : State) : Host.Outcome State Fault Refusal := .next s

/-- WRREG (R271): an undefined or read-only register raises cause 3. -/
def execWrreg (idx : BitVec 8) (val : BitVec 32) (s : State) :
    Host.Outcome State Fault Refusal :=
  match (Reg.ofIndex idx).bind (fun r => writeReg r val s) with
  | some t => .next t
  | none => .next (raiseIllegal (Opcode.byte .wrreg) .badRegister s)

/-- RDREG (R272): one response in every case (R276), 0 with cause 3 for an undefined register. -/
def execRdreg (idx : BitVec 8) (s : State) : Host.Outcome State Fault Refusal :=
  match Reg.ofIndex idx with
  | some r => .next (s.emitRsp (readReg r s))
  | none => .next (raiseIllegal (Opcode.byte .rdreg) .badRegister s)

/-- WRNORM (R273): an index above 99 raises cause 5. -/
def execWrnorm (idx : BitVec 8) (val : BitVec 24) (s : State) :
    Host.Outcome State Fault Refusal :=
  if normLegal idx then .next (s.setNorm (s.norm.write idx.toNat val))
  else .next (raiseIllegal (Opcode.byte .wrnorm) .badNormIndex s)

/-- RDNORM (R274): one response in every case (R276), 0 with cause 5 for an index above 99. -/
def execRdnorm (idx : BitVec 8) (s : State) : Host.Outcome State Fault Refusal :=
  if normLegal idx then .next (s.emitRsp ((s.norm.read idx.toNat).setWidth 32))
  else .next (raiseIllegal (Opcode.byte .rdnorm) .badNormIndex s)

end Sys2Proof.Machine
end

