-- ==== Sys2Proof/Machine/Frequency.lean ====
section
/-! DEFINITION. SETFREQ and SETMOD (R160 to R164, 41_frequency). -/

namespace Sys2Proof.Machine

/-- SETFREQ (R161): with R = 1 both steps are set and both accumulators reset; with R = 0 only the
modulator's step is set, and FC is ignored (C6, 90_conflicts). -/
def execSetfreq (fc fm : BitVec 24) (r : BitVec 1) (s : State) :
    Host.Outcome State Fault Refusal :=
  if r = 1#1 then
    .next (((s.setCarStep (phaseStep fc s)).setModStep (phaseStep fm s)).setPhase 0#32 0#32)
  else .next (s.setModStep (phaseStep fm s))

/-- SETMOD (R162). -/
def execSetmod (fm : BitVec 24) (s : State) : Host.Outcome State Fault Refusal :=
  .next (s.setModStep (phaseStep fm s))

end Sys2Proof.Machine
end

