-- ==== Sys2Proof/Machine/Init.lean ====
section
/-! DEFINITION. INIT (R140 to R143, 40_init). -/

namespace Sys2Proof.Machine

/-- INIT (R140): the rate, the depth and its output scale, both accumulators to 0; the sine ROM
already holds its tables (R75) and the steps are not recomputed (R143). An operand out of range
raises cause 4 (R142). -/
def execInit (sr : BitVec 32) (db : BitVec 8) (s : State) : Host.Outcome State Fault Refusal :=
  if initLegal sr db then
    .next ((s.setFormat sr (db.setWidth 5) (outScaleOf db)).setPhase 0#32 0#32)
  else .next (raiseIllegal (Opcode.byte .init) .badInitOperand s)

end Sys2Proof.Machine
end

