-- ==== Sys2Proof/Machine/Note.lean ====
section
/-! DEFINITION. The note gate: NOTEON and NOTEOFF (R240 to R246, 44_note_and_tick). -/

namespace Sys2Proof.Machine

/-- NOTEON (R240): the envelope restarts from Attack at level 0, the note is latched, and the gate
opens. A note already active is replaced (R241); velocity 0 is no exception (R242). -/
def execNoteon (cmd note vel : BitVec 8) (s : State) : Host.Outcome State Fault Refusal :=
  .next (((s.setEnv .attack 0#17 0#32).setActiveNote note).setNoteState
    (noteStateOf true cmd note vel))

/-- What a matching note-off makes of ACTIVE under a policy: GATE closes the gate (R15, 00_scope;
R246). -/
def activeAfterOff (policy : Config.NoteOffPolicy) : Bool :=
  match policy with
  | .gate => false

/-- NOTEOFF (R245): the message is recorded; the gate closes only when NOTE is the latched note.
The envelope and the phases stay. -/
def execNoteoff (cmd note vel : BitVec 8) (s : State) : Host.Outcome State Fault Refusal :=
  .next (s.setNoteState
    (noteStateOf (if note = s.activeNote then activeAfterOff Config.noteOffPolicy else s.active)
      cmd note vel))

end Sys2Proof.Machine
end

