-- ==== Sys2Proof/Machine/Tables.lean ====
section
/-! DEFINITION. The sine ROM of R72 (20_memory), written from its table row by row, and the cosine
view of it (R73). The ROM is never written (R75), so it is a constant and no part of State (log 6). -/

namespace Sys2Proof.Machine

/-- R72, entries 0 to 15. -/
def sineRow0 : List Int :=
  [0, 1608, 3216, 4821, 6424, 8022, 9616, 11204,
   12785, 14359, 15924, 17479, 19024, 20557, 22078, 23586]

/-- R72, entries 16 to 31. -/
def sineRow16 : List Int :=
  [25080, 26558, 28020, 29466, 30893, 32303, 33692, 35062,
   36410, 37736, 39040, 40320, 41576, 42806, 44011, 45190]

/-- R72, entries 32 to 47. -/
def sineRow32 : List Int :=
  [46341, 47464, 48559, 49624, 50660, 51665, 52639, 53581,
   54491, 55368, 56212, 57022, 57798, 58538, 59244, 59914]

/-- R72, entries 48 to 63. -/
def sineRow48 : List Int :=
  [60547, 61145, 61705, 62228, 62714, 63162, 63572, 63944,
   64277, 64571, 64827, 65043, 65220, 65358, 65457, 65516]

/-- R72, entries 64 to 79. -/
def sineRow64 : List Int :=
  [65536, 65516, 65457, 65358, 65220, 65043, 64827, 64571,
   64277, 63944, 63572, 63162, 62714, 62228, 61705, 61145]

/-- R72, entries 80 to 95. -/
def sineRow80 : List Int :=
  [60547, 59914, 59244, 58538, 57798, 57022, 56212, 55368,
   54491, 53581, 52639, 51665, 50660, 49624, 48559, 47464]

/-- R72, entries 96 to 111. -/
def sineRow96 : List Int :=
  [46341, 45190, 44011, 42806, 41576, 40320, 39040, 37736,
   36410, 35062, 33692, 32303, 30893, 29466, 28020, 26558]

/-- R72, entries 112 to 127. -/
def sineRow112 : List Int :=
  [25080, 23586, 22078, 20557, 19024, 17479, 15924, 14359,
   12785, 11204, 9616, 8022, 6424, 4821, 3216, 1608]

/-- R72, entries 128 to 143. -/
def sineRow128 : List Int :=
  [0, -1608, -3216, -4821, -6424, -8022, -9616, -11204,
   -12785, -14359, -15924, -17479, -19024, -20557, -22078, -23586]

/-- R72, entries 144 to 159. -/
def sineRow144 : List Int :=
  [-25080, -26558, -28020, -29466, -30893, -32303, -33692, -35062,
   -36410, -37736, -39040, -40320, -41576, -42806, -44011, -45190]

/-- R72, entries 160 to 175. -/
def sineRow160 : List Int :=
  [-46341, -47464, -48559, -49624, -50660, -51665, -52639, -53581,
   -54491, -55368, -56212, -57022, -57798, -58538, -59244, -59914]

/-- R72, entries 176 to 191. -/
def sineRow176 : List Int :=
  [-60547, -61145, -61705, -62228, -62714, -63162, -63572, -63944,
   -64277, -64571, -64827, -65043, -65220, -65358, -65457, -65516]

/-- R72, entries 192 to 207. -/
def sineRow192 : List Int :=
  [-65536, -65516, -65457, -65358, -65220, -65043, -64827, -64571,
   -64277, -63944, -63572, -63162, -62714, -62228, -61705, -61145]

/-- R72, entries 208 to 223. -/
def sineRow208 : List Int :=
  [-60547, -59914, -59244, -58538, -57798, -57022, -56212, -55368,
   -54491, -53581, -52639, -51665, -50660, -49624, -48559, -47464]

/-- R72, entries 224 to 239. -/
def sineRow224 : List Int :=
  [-46341, -45190, -44011, -42806, -41576, -40320, -39040, -37736,
   -36410, -35062, -33692, -32303, -30893, -29466, -28020, -26558]

/-- R72, entries 240 to 255. -/
def sineRow240 : List Int :=
  [-25080, -23586, -22078, -20557, -19024, -17479, -15924, -14359,
   -12785, -11204, -9616, -8022, -6424, -4821, -3216, -1608]

/-- SINE, 256 signed entries in Q16 (R71, R72, 20_memory). -/
def sineTable : List Int :=
  sineRow0 ++ sineRow16 ++ sineRow32 ++ sineRow48 ++
  sineRow64 ++ sineRow80 ++ sineRow96 ++ sineRow112 ++
  sineRow128 ++ sineRow144 ++ sineRow160 ++ sineRow176 ++
  sineRow192 ++ sineRow208 ++ sineRow224 ++ sineRow240

/-- `MemRead(SINE, i)` (R19, 00_scope); an 8-bit index cannot fall outside the table (R74). -/
def sine (i : BitVec 8) : Int := sineTable.getD i.toNat 0

/-- COS[i] = SINE[(i + 64) mod 256] (R73, 20_memory). -/
def cosine (i : BitVec 8) : Int := sine (i + 64#8)

/-- The table index of an accumulator, its bits 31 to 24 (R74, 20_memory). -/
def tableIndex (acc : BitVec 32) : BitVec 8 := acc.extractLsb' 24 8

end Sys2Proof.Machine
end

