-- ==== Sys2Proof/Machine/Datapath.lean ====
section
/-! DEFINITION. The sample datapath, getNextSample (R180 to R191, 42_sample_datapath): exact
integers throughout, with every quotient truncated toward zero (R17, 00_scope). -/

namespace Sys2Proof.Machine

/-- `tdiv(x, y)` (R17, 00_scope): integer division truncated toward zero. -/
def tdiv (x y : Int) : Int := Int.tdiv x y

/-- `clamp_a` of a raw shape value in Q16 (R180): A, from 0 to 65535. -/
def clampA (x : Int) : BitVec 16 :=
  if x < 0 then 0#16
  else if (Config.one : Int) ≤ x then BitVec.ofNat 16 Config.aMax
  else BitVec.ofInt 16 x

/-- NUM, (1 - a²) · sin θ in Q48 (R182). -/
def dsfNum (a : BitVec 16) (sin : Int) : Int :=
  (2 ^ 32 - (a.toNat : Int) * (a.toNat : Int)) * sin

/-- DEN, (1 + a²) - 2 · a · cos β in Q32 (R182). -/
def dsfDen (a : BitVec 16) (cos : Int) : Int :=
  2 ^ 32 + (a.toNat : Int) * (a.toNat : Int) - 2 * (a.toNat : Int) * cos

/-- Y, the DSF quotient in Q16 (R183). -/
def dsfQuotient (a : BitVec 16) (sin cos : Int) : Int := tdiv (dsfNum a sin) (dsfDen a cos)

/-- The normalisation bucket of A (R186). -/
def normIndex (a : BitVec 16) : Nat := a.toNat * Config.normLevels / Config.one

/-- The scaling by a factor in Q8.16 (R187). -/
def scaleQ16 (y : Int) (factor : Nat) : Int := tdiv (y * (factor : Int)) (Config.one : Int)

/-- Yn (R187): scaled by the bucket's factor while CTRL.NORM_EN is 1. -/
def normalise (a : BitVec 16) (y : Int) (s : State) : Int :=
  if s.normEn then scaleQ16 y (s.norm.read (normIndex a)).toNat else y

/-- The output mapping (R188); OUT_OFFSET is OUT_SCALE (R44). -/
def outputCode (scale : BitVec 15) (yn : Int) : Int :=
  scaleQ16 yn scale.toNat + (scale.toNat : Int)

/-- The range check against the DAC's depth (R189). -/
def codeInRange (bits : BitVec 5) (code : Int) : Bool :=
  decide (0 ≤ code) && decide (code ≤ (2 ^ bits.toNat - 1 : Nat))

/-- The raw sample Y of a state for a given A: the table reads of R181, at the accumulators before
the phase advance, and the quotient of R183. -/
def rawSample (a : BitVec 16) (s : State) : Int :=
  dsfQuotient a (sine (tableIndex s.carAcc)) (cosine (tableIndex s.modAcc))

/-- The DAC code of a state for a given A (R181 to R188). -/
def sampleCode (a : BitVec 16) (s : State) : Int :=
  outputCode s.outScale (normalise a (rawSample a s) s)

/-- The code is emitted and recorded in LAST_CODE when it is in range, else discarded (R189). -/
def emitOrDiscard (code : Int) (s : State) : State :=
  if codeInRange s.dacBits code then
    (s.emitDac (BitVec.ofInt 16 code)).setLastCode (BitVec.ofInt 16 code)
  else s

/-- The phase advance, modulo 2^32 (R190). -/
def advancePhase (s : State) : State := s.setPhase (s.carAcc + s.carStep) (s.modAcc + s.modStep)

/-- `next_sample(A)` (R191). -/
def nextSample (a : BitVec 16) (s : State) : State :=
  advancePhase (emitOrDiscard (sampleCode a s) (s.setLastA a))

end Sys2Proof.Machine
end

