-- ==== Sys2Proof/Machine/Envelope.lean ====
section
/-! DEFINITION. The envelope generator (R210 to R219, 43_envelope) and the shape parameter (R220,
R221). The step functions take ENV_STEP and ENV_MAX as an argument (R14; log 7); the rates and the
sustain level are read afresh on every call (R211). -/

namespace Sys2Proof.Machine

/-- The rate the envelope uses: a stored 0 acts as 1 (R212). -/
def effectiveRate (rate : BitVec 16) : Nat := max rate.toNat 1

/-- The level moves on this tick: `stepCounter modulo rate == 0` (R214, R216). -/
def levelMoves (rate : BitVec 16) (s : State) : Bool :=
  decide (s.envStepcnt.toNat % effectiveRate rate = 0)

/-- The level after an Attack tick, saturating at ENV_MAX (R214). -/
def attackLevel (p : Config.EnvParams) (s : State) : Nat :=
  if levelMoves s.attackRate s then min (s.envLevel.toNat + p.step) p.max else s.envLevel.toNat

/-- The level after a Decay tick, saturating at 0 as natural subtraction does (R216). -/
def decayLevel (p : Config.EnvParams) (s : State) : Nat :=
  if levelMoves s.decayRate s then s.envLevel.toNat - p.step else s.envLevel.toNat

/-- `attack_step` (R214), with the change to Decay in the tick that reaches ENV_MAX (R215). -/
def attackStep (p : Config.EnvParams) (s : State) : State :=
  if p.max ≤ attackLevel p s then
    s.setEnv .decay (BitVec.ofNat 17 (attackLevel p s)) 0#32
  else s.setEnv .attack (BitVec.ofNat 17 (attackLevel p s)) (s.envStepcnt + 1#32)

/-- `decay_step` (R216), with the change to Sustain in the tick whose level, after the decrement, is
at most SUSTAIN_LEVEL (R217). -/
def decayStep (p : Config.EnvParams) (s : State) : State :=
  if decayLevel p s ≤ s.sustainLevel.toNat then
    s.setEnv .sustain (BitVec.ofNat 17 (decayLevel p s)) 0#32
  else s.setEnv .decay (BitVec.ofNat 17 (decayLevel p s)) (s.envStepcnt + 1#32)

/-- `sustain_step` (R218): the live sustain level; mode and counter stay. -/
def sustainStep (s : State) : State := s.setEnv s.envMode s.sustainLevel s.envStepcnt

/-- `env_step` (R213), Release being an explicit no-op (R219). -/
def envStep (p : Config.EnvParams) (s : State) : State :=
  match s.envMode with
  | .attack => attackStep p s
  | .decay => decayStep p s
  | .sustain => sustainStep s
  | .release => s

/-- The envelope's shape value in U1.16 (R220): the level, or 1.0 less the level. -/
def envShape (s : State) : Int :=
  if s.invert then (s.envLevel.toNat : Int) else (Config.one : Int) - (s.envLevel.toNat : Int)

/-- The raw shape value: SHAPE_IN, sign-extended, or the envelope's (R221; R38, 10_state). -/
def rawShape (s : State) : Int := if s.src then s.shapeIn.toInt else envShape s

/-- `shape_a` (R221). -/
def shapeA (s : State) : BitVec 16 := clampA (rawShape s)

end Sys2Proof.Machine
end

