-- ==== Sys2Proof/Machine/Tick.lean ====
section
/-! DEFINITION. TICK (R250 to R253, 44_note_and_tick). -/

namespace Sys2Proof.Machine

/-- An active tick (R250): the envelope steps, then the shape parameter is taken from the stepped
envelope, then one sample is made from it. -/
def activeTick (p : Config.EnvParams) (s : State) : State :=
  let t := envStep p s
  nextSample (shapeA t) t

/-- TICK (R250): while the gate is closed it changes nothing (R251). -/
def execTick (s : State) : Host.Outcome State Fault Refusal :=
  if s.active then .next (activeTick Config.env s) else .next s

end Sys2Proof.Machine
end

