-- ==== Sys2Proof/Machine/Dispatch.lean ====
section
/-! DEFINITION. The dispatch from a command to its meaning, one arm per constructor of Instr. -/

namespace Sys2Proof.Machine

def exec (i : Instr) (s : State) : Host.Outcome State Fault Refusal :=
  match i with
  | .nop => Sys2Proof.Machine.execNop s
  | .init sr db => Sys2Proof.Machine.execInit sr db s
  | .setfreq fc fm r => Sys2Proof.Machine.execSetfreq fc fm r s
  | .setmod fm => Sys2Proof.Machine.execSetmod fm s
  | .noteon cmd note vel => Sys2Proof.Machine.execNoteon cmd note vel s
  | .noteoff cmd note vel => Sys2Proof.Machine.execNoteoff cmd note vel s
  | .tick => Sys2Proof.Machine.execTick s
  | .wrreg idx val => Sys2Proof.Machine.execWrreg idx val s
  | .rdreg idx => Sys2Proof.Machine.execRdreg idx s
  | .wrnorm idx val => Sys2Proof.Machine.execWrnorm idx val s
  | .rdnorm idx => Sys2Proof.Machine.execRdnorm idx s

end Sys2Proof.Machine
end

