-- ==== Sys2Proof/Machine/Step.lean ====
section
/-! DEFINITION. One step of the engine (R12, 00_scope; R82, 20_memory): take what arrives at the
inputs, decode the word and execute it whole. -/

namespace Sys2Proof.Machine

/-- One delivered word, executed whole: a word that spells no command raises IllegalCommand and
nothing else (R115, 30_encoding; R301, 60_exceptions). -/
def runWord (w : Word) (s : State) : Host.Outcome State Fault Refusal :=
  match decode w with
  | .ok i => exec i s
  | .error c => .next (raiseIllegal (opcodeByte w) c s)

/-- One step: nothing arrives and nothing changes but the inputs, or the reset signal arrives
(R342), or a word does. -/
def step (s : State) : Host.Outcome State Fault Refusal :=
  match arrival s with
  | .idle t => .next t
  | .word w t => runWord w t
  | .reset t => .next (applyReset t)

/-- `s` with the given word issued by CONTROL in front of its stream and arriving next (log 2). -/
def State.withFetchWord (s : State) (nbits w : Nat) : State :=
  queueWord (BitVec.ofNat 64 (w % 2 ^ nbits)) s

end Sys2Proof.Machine
end

