-- ==== Sys2Proof/Machine/Assembler.lean ====
section
/-! DEFINITION. The assembler of R116 and its pseudo-commands of R117 (30_encoding): one line of
text to the commands it stands for. An operand that does not fit its field is refused, never
truncated. What counts as a blank is the model's choice (log 13). -/

namespace Sys2Proof

/-- The mnemonics of R116 and the pseudo-commands of R117. -/
inductive Mnemonic where
  | nop
  | init
  | setfreq
  | setmod
  | noteon
  | noteoff
  | tick
  | wrreg
  | rdreg
  | wrnorm
  | rdnorm
  | tickn
  | play
  | legato
  | stop
  | seta
  | clrstat
  deriving DecidableEq, Repr

/-- The spelling of R116 and R117. -/
def Mnemonic.name : Mnemonic → List Char
  | .nop => ['N', 'O', 'P']
  | .init => ['I', 'N', 'I', 'T']
  | .setfreq => ['S', 'E', 'T', 'F', 'R', 'E', 'Q']
  | .setmod => ['S', 'E', 'T', 'M', 'O', 'D']
  | .noteon => ['N', 'O', 'T', 'E', 'O', 'N']
  | .noteoff => ['N', 'O', 'T', 'E', 'O', 'F', 'F']
  | .tick => ['T', 'I', 'C', 'K']
  | .wrreg => ['W', 'R', 'R', 'E', 'G']
  | .rdreg => ['R', 'D', 'R', 'E', 'G']
  | .wrnorm => ['W', 'R', 'N', 'O', 'R', 'M']
  | .rdnorm => ['R', 'D', 'N', 'O', 'R', 'M']
  | .tickn => ['T', 'I', 'C', 'K', 'N']
  | .play => ['P', 'L', 'A', 'Y']
  | .legato => ['L', 'E', 'G', 'A', 'T', 'O']
  | .stop => ['S', 'T', 'O', 'P']
  | .seta => ['S', 'E', 'T', 'A']
  | .clrstat => ['C', 'L', 'R', 'S', 'T', 'A', 'T']

/-- All mnemonics. -/
def Mnemonic.all : List Mnemonic :=
  [.nop, .init, .setfreq, .setmod, .noteon, .noteoff, .tick, .wrreg, .rdreg,
   .wrnorm, .rdnorm, .tickn, .play, .legato, .stop, .seta, .clrstat]

/-- The register names of R33 (10_state), which WRREG and RDREG may use (R116). -/
def Reg.name : Reg → List Char
  | .ctrl => ['C', 'T', 'R', 'L']
  | .attackRate => ['A', 'T', 'T', 'A', 'C', 'K', '_', 'R', 'A', 'T', 'E']
  | .decayRate => ['D', 'E', 'C', 'A', 'Y', '_', 'R', 'A', 'T', 'E']
  | .sustainLevel => ['S', 'U', 'S', 'T', 'A', 'I', 'N', '_', 'L', 'E', 'V', 'E', 'L']
  | .shapeIn => ['S', 'H', 'A', 'P', 'E', '_', 'I', 'N']
  | .status => ['S', 'T', 'A', 'T', 'U', 'S']
  | .noteState => ['N', 'O', 'T', 'E', '_', 'S', 'T', 'A', 'T', 'E']
  | .activeNote => ['A', 'C', 'T', 'I', 'V', 'E', '_', 'N', 'O', 'T', 'E']
  | .sampleRate => ['S', 'A', 'M', 'P', 'L', 'E', '_', 'R', 'A', 'T', 'E']
  | .dacBits => ['D', 'A', 'C', '_', 'B', 'I', 'T', 'S']
  | .outScale => ['O', 'U', 'T', '_', 'S', 'C', 'A', 'L', 'E']
  | .carStep => ['C', 'A', 'R', '_', 'S', 'T', 'E', 'P']
  | .modStep => ['M', 'O', 'D', '_', 'S', 'T', 'E', 'P']
  | .carAcc => ['C', 'A', 'R', '_', 'A', 'C', 'C']
  | .modAcc => ['M', 'O', 'D', '_', 'A', 'C', 'C']
  | .envMode => ['E', 'N', 'V', '_', 'M', 'O', 'D', 'E']
  | .envLevel => ['E', 'N', 'V', '_', 'L', 'E', 'V', 'E', 'L']
  | .envStepcnt => ['E', 'N', 'V', '_', 'S', 'T', 'E', 'P', 'C', 'N', 'T']
  | .lastCode => ['L', 'A', 'S', 'T', '_', 'C', 'O', 'D', 'E']
  | .lastA => ['L', 'A', 'S', 'T', '_', 'A']

/-- All registers, by index. -/
def Reg.all : List Reg :=
  [.ctrl, .attackRate, .decayRate, .sustainLevel, .shapeIn, .status, .noteState,
   .activeNote, .sampleRate, .dacBits, .outScale, .carStep, .modStep, .carAcc,
   .modAcc, .envMode, .envLevel, .envStepcnt, .lastCode, .lastA]

/-- An operand as written: a number or a register name (R116). -/
inductive AsmOperand where
  | num (n : Nat)
  | reg (r : Reg)
  deriving DecidableEq, Repr

end Sys2Proof

namespace Sys2Proof.Machine

/-- A number in an `n`-bit field, refused when it does not fit (R116). -/
def fits (n : Nat) (v : Nat) : Option (BitVec n) :=
  if v < 2 ^ n then some (BitVec.ofNat n v) else none

/-- The index operand of WRREG and RDREG: a register's name or its index (R116). -/
def regOperand : AsmOperand → Option (BitVec 8)
  | .num n => fits 8 n
  | .reg r => some r.index

/-- `SETFREQ fc, fm, r`. -/
def asmSetfreq (fc fm r : Nat) : Option Instr := do
  some (.setfreq (← fits 24 fc) (← fits 24 fm) (← fits 1 r))

/-- `SETMOD fm`. -/
def asmSetmod (fm : Nat) : Option Instr := do some (.setmod (← fits 24 fm))

/-- `NOTEON cmd, note, vel`. -/
def asmNoteon (cmd note vel : Nat) : Option Instr := do
  some (.noteon (← fits 8 cmd) (← fits 8 note) (← fits 8 vel))

/-- `NOTEOFF cmd, note, vel`. -/
def asmNoteoff (cmd note vel : Nat) : Option Instr := do
  some (.noteoff (← fits 8 cmd) (← fits 8 note) (← fits 8 vel))

/-- `WRREG idx, val`. -/
def asmWrreg (idx : AsmOperand) (val : Nat) : Option Instr := do
  some (.wrreg (← regOperand idx) (← fits 32 val))

/-- The commands of one mnemonic with its operands (R116), a pseudo-command being expanded (R117):
`none` when the operands are not those the syntax gives or one does not fit its field. -/
def assemble (m : Mnemonic) (ops : List AsmOperand) : Option (List Instr) :=
  match m, ops with
  | .nop, [] => some [.nop]
  | .init, [.num sr, .num db] => do some [.init (← fits 32 sr) (← fits 8 db)]
  | .setfreq, [.num fc, .num fm, .num r] => do some [← asmSetfreq fc fm r]
  | .setmod, [.num fm] => do some [← asmSetmod fm]
  | .noteon, [.num cmd, .num note, .num vel] => do some [← asmNoteon cmd note vel]
  | .noteoff, [.num cmd, .num note, .num vel] => do some [← asmNoteoff cmd note vel]
  | .tick, [] => some [.tick]
  | .wrreg, [idx, .num val] => do some [← asmWrreg idx val]
  | .rdreg, [idx] => do some [.rdreg (← regOperand idx)]
  | .wrnorm, [.num k, .num val] => do some [.wrnorm (← fits 8 k) (← fits 24 val)]
  | .rdnorm, [.num k] => do some [.rdnorm (← fits 8 k)]
  | .tickn, [.num n] => some (List.replicate n .tick)
  | .play, [.num fc, .num fm, .num note, .num vel] => do
      some [← asmSetfreq fc fm 1, ← asmNoteon 0x90 note vel]
  | .legato, [.num fm, .num note, .num vel] => do
      some [← asmSetmod fm, ← asmNoteon 0x90 note vel]
  | .stop, [.num note] => do some [← asmNoteoff 0x80 note 0]
  | .seta, [.num v] => do some [← asmWrreg (.reg .shapeIn) v]
  | .clrstat, [] => do some [← asmWrreg (.reg .status) 1]
  | _, _ => none

/-- The digits of R116's two number forms, as runs of characters: where a run starts, what its first
digit is worth, and how many there are. Hexadecimal letters are read in either case (log 13). -/
def digitRuns : List (Char × Nat × Nat) := [('0', 0, 10), ('A', 10, 6), ('a', 10, 6)]

/-- What a digit is worth, from the run it stands in. -/
def digit (c : Char) : Option Nat :=
  digitRuns.findSome? (fun r =>
    if r.1.toNat ≤ c.toNat ∧ c.toNat < r.1.toNat + r.2.2
    then some (r.2.1 + (c.toNat - r.1.toNat)) else none)

/-- The number that digits spell in a base, most significant first; none if one is no digit of it. -/
def numeral (base : Nat) (cs : List Char) : Option Nat :=
  cs.foldlM (fun n c => ((digit c).filter (· < base)).map (base * n + ·)) 0

/-- A number, decimal or `0x` hexadecimal (R116). -/
def number : List Char → Option Nat
  | [] => none
  | '0' :: 'x' :: c :: cs => numeral 16 (c :: cs)
  | c :: cs => numeral 10 (c :: cs)

/-- A blank (log 13). -/
def isBlank (c : Char) : Bool := c == ' ' || c == '\t'

/-- Text without the blanks at its two ends. -/
def trim (cs : List Char) : List Char :=
  ((cs.dropWhile isBlank).reverse.dropWhile isBlank).reverse

/-- The pieces between commas. -/
def pieces : List Char → List (List Char)
  | [] => [[]]
  | c :: cs =>
      match pieces cs with
      | [] => [[]]
      | p :: ps => if c == ',' then [] :: p :: ps else (c :: p) :: ps

/-- One operand: a register's name or a number (R116). -/
def asmOperand (cs : List Char) : Option AsmOperand :=
  match Reg.all.find? (fun r => r.name == cs) with
  | some r => some (.reg r)
  | none => (number cs).map .num

/-- The operands of a line, separated by commas; blank text has none (R116). -/
def asmOperands (cs : List Char) : Option (List AsmOperand) :=
  if (trim cs).isEmpty then some [] else (pieces cs).mapM (fun p => asmOperand (trim p))

/-- One line of assembler text (R116): `;` starts a comment, a line without a command stands for
no word, and a line that spells none is refused. -/
def asmLine (line : List Char) : Option (List Instr) :=
  let text := trim (line.takeWhile (fun c => c != ';'))
  if text.isEmpty then some []
  else
    match Mnemonic.all.find? (fun m => m.name == text.takeWhile (fun c => !isBlank c)) with
    | some m => (asmOperands (text.dropWhile (fun c => !isBlank c))).bind (assemble m)
    | none => none

/-- The words of a line (R116). -/
def asmWords (line : List Char) : Option (List Word) := (asmLine line).map (List.map encode)

end Sys2Proof.Machine
end

