-- ==== Sys2Proof/WellFormed.lean ====
section
/-! DEFINITION. Which commands are legal: the operand conditions of R302 (60_exceptions), stated
apart from the machine, which makes the same checks inside each command's own meaning. The widths
of the operands are in their types, so every other condition on a command is met by construction. -/

namespace Sys2Proof

/-- The operands of `i` pass its opcode's operand check, so none of causes 3, 4 and 5 of R302
applies. Every word with a defined opcode and clear reserved bits decodes, legal or not. -/
def Instr.WellFormed : Instr → Bool
  | .nop => true
  | .init sr db =>
      decide (Config.rateMin ≤ sr.toNat) &&
        (decide (Config.dacBitsMin ≤ db.toNat) && decide (db.toNat ≤ Config.dacBitsMax))
  | .setfreq _ _ _ => true
  | .setmod _ => true
  | .noteon _ _ _ => true
  | .noteoff _ _ _ => true
  | .tick => true
  | .wrreg idx _ => decide (idx.toNat ≤ 0x05)
  | .rdreg idx => decide (idx.toNat ≤ 0x13)
  | .wrnorm idx _ => decide (idx.toNat < Config.normLevels)
  | .rdnorm idx => decide (idx.toNat < Config.normLevels)

end Sys2Proof
end

