-- ==== Sys2Proof/Safety.lean ====
section
/-! DEFINITION. What counts as a proper state and a safe run, in the terms claims use: the
invariants of R56 (10_state), which words raise IllegalCommand (R302, R303, 60_exceptions) and the
mark that 93_implementation_defined asks for, runs of words in the order of delivery (R82,
20_memory), and the merges of two streams. -/

namespace Sys2Proof

/-- The cause of a command whose operand check fails (R302), from its opcode alone: each opcode has
at most one operand check (R303, 60_exceptions). -/
def Instr.operandCause (i : Instr) : Option Cause :=
  if i.WellFormed then none
  else
    match i with
    | .nop => none
    | .init _ _ => some .badInitOperand
    | .setfreq _ _ _ => none
    | .setmod _ => none
    | .noteon _ _ _ => none
    | .noteoff _ _ _ => none
    | .tick => none
    | .wrreg _ _ => some .badRegister
    | .rdreg _ => some .badRegister
    | .wrnorm _ _ => some .badNormIndex
    | .rdnorm _ => some .badNormIndex

/-- The cause a word records, if it is illegal (R302, R303, 60_exceptions): the word alone decides. -/
def wordCause (w : Word) : Option Cause :=
  match decode w with
  | .ok i => i.operandCause
  | .error c => some c

end Sys2Proof

namespace Sys2Proof.Machine

/-- STATUS in a form the engine can reach: all zero, or ILL with one of the five codes (R39, R302). -/
def statusLegal (v : BitVec 16) : Bool :=
  decide (v = 0#16) || decide (v = statusOf Cause.undefinedOpcode.code) ||
    decide (v = statusOf Cause.reservedBits.code) || decide (v = statusOf Cause.badRegister.code) ||
    decide (v = statusOf Cause.badInitOperand.code) || decide (v = statusOf Cause.badNormIndex.code)

/-- The invariants of R56 (10_state), with the canonical form of the normalisation RAM, and the
counter of R218 (43_envelope), which stays 0 in Sustain. SUSTAIN_LEVEL's bound is R37's. -/
structure EngineInv (s : State) : Prop where
  levelBound : s.envLevel.toNat ≤ Config.one
  sustainBound : s.sustainLevel.toNat ≤ Config.one
  rateNonzero : Config.rateMin ≤ s.sampleRate.toNat
  depthLow : Config.dacBitsMin ≤ s.dacBits.toNat
  depthHigh : s.dacBits.toNat ≤ Config.dacBitsMax
  scaleOfDepth : s.outScale.toNat = (2 ^ s.dacBits.toNat - 1) / 2
  notRelease : s.envMode ≠ .release
  sustainCounter : s.envMode = .sustain → s.envStepcnt = 0#32
  statusForm : statusLegal s.status = true
  normForm : s.norm.wf = true

/-- `t` reads as `s` does in every register that `rs` does not list. -/
def KeepsRegs (rs : List Reg) (s t : State) : Prop :=
  ∀ r : Reg, r ∉ rs → readReg r t = readReg r s

/-- `t` reads as `s` does at every index of NORM. -/
def KeepsNorm (s t : State) : Prop := ∀ k, t.norm.read k = s.norm.read k

/-- `t` has made the same writes to the DAC and the same responses as `s` (R322, R323). -/
def KeepsOutputs (s t : State) : Prop := t.dacOut = s.dacOut ∧ t.rspOut = s.rspOut

/-- `t` has the same words and signals still to come as `s` (R82). -/
def KeepsInputs (s t : State) : Prop :=
  t.control = s.control ∧ t.ticker = s.ticker ∧ t.arrivals = s.arrivals

/-- The frame of a command that writes only the registers `rs`: no other register, no NORM entry and
no port. -/
def WritesOnly (rs : List Reg) (s t : State) : Prop :=
  KeepsRegs rs s t ∧ KeepsNorm s t ∧ KeepsOutputs s t ∧ KeepsInputs s t

/-- The table of R275 (45_register_access) for a delivered word with opcode `op`: whether it may
change register `r` of state `s`. STATUS apart, which WRREG clears and IllegalCommand sets. -/
def mayWrite (op : Opcode) (w : Word) (s : State) (r : Reg) : Bool :=
  match r with
  | .ctrl => decide (op = .wrreg)
  | .attackRate => decide (op = .wrreg)
  | .decayRate => decide (op = .wrreg)
  | .sustainLevel => decide (op = .wrreg)
  | .shapeIn => decide (op = .wrreg)
  | .status => decide (op = .wrreg)
  | .noteState => decide (op = .noteon) || decide (op = .noteoff)
  | .activeNote => decide (op = .noteon)
  | .sampleRate => decide (op = .init)
  | .dacBits => decide (op = .init)
  | .outScale => decide (op = .init)
  | .carStep => decide (op = .setfreq) && w.getLsbD 48
  | .modStep => decide (op = .setfreq) || decide (op = .setmod)
  | .carAcc => decide (op = .init) || (decide (op = .setfreq) && w.getLsbD 48) ||
      (decide (op = .tick) && s.active)
  | .modAcc => decide (op = .init) || (decide (op = .setfreq) && w.getLsbD 48) ||
      (decide (op = .tick) && s.active)
  | .envMode => decide (op = .noteon) || (decide (op = .tick) && s.active)
  | .envLevel => decide (op = .noteon) || (decide (op = .tick) && s.active)
  | .envStepcnt => decide (op = .noteon) || (decide (op = .tick) && s.active)
  | .lastCode => decide (op = .tick) && s.active
  | .lastA => decide (op = .tick) && s.active

/-- `s` and `t` hold the same of everything that a sample or an envelope step may read: all but
STATUS, the message fields of NOTE_STATE and the two observation registers (R39, R40, R50, R51), and
but for the responses and the inputs. -/
def SameSound (s t : State) : Prop :=
  (∀ r : Reg, r ∉ [Reg.status, Reg.noteState, Reg.lastCode, Reg.lastA] →
    readReg r s = readReg r t) ∧
  s.active = t.active ∧ (∀ k, s.norm.read k = t.norm.read k) ∧ s.dacOut = t.dacOut

/-- The words delivered one after another (R82, 20_memory), each executed whole. -/
def runWords : List Word → State → Host.Outcome State Fault Refusal
  | [], s => .next s
  | w :: ws, s =>
      match runWord w s with
      | .next t => runWords ws t
      | .fault r => .fault r
      | .refused r => .refused r

/-- `n` ticks in a row, `TICKN n` of R117 (30_encoding). -/
def runTicks (n : Nat) (s : State) : Host.Outcome State Fault Refusal :=
  runWords (List.replicate n (encode .tick)) s

/-- `ws` is a merge of the two streams that keeps each one's own order (R13, 00_scope; R82). -/
inductive IsMerge : List Word → List Word → List Word → Prop where
  | done : IsMerge [] [] []
  | control {c t ws : List Word} (w : Word) : IsMerge c t ws → IsMerge (w :: c) t (w :: ws)
  | ticker {c t ws : List Word} (w : Word) : IsMerge c t ws → IsMerge c (w :: t) (w :: ws)

/-- The word `w` raises IllegalCommand with the given cause code in state `s` (R301, 60_exceptions):
STATUS reads the code in bits 15 to 8, 0 in bits 7 to 1 and 1 in bit 0 (R39, 10_state), a read opcode
gets the response 0, and nothing else changes. -/
def Raises (w : Word) (code : Nat) (s : State) : Prop :=
  ∃ t, runWord w s = .next t ∧ (readReg .status t).toNat = 256 * code + 1 ∧
    t.ill = true ∧ t.cause.toNat = code ∧ KeepsRegs [.status] s t ∧
    KeepsNorm s t ∧ t.dacOut = s.dacOut ∧ KeepsInputs s t ∧
    t.rspOut =
      if opcodeByte w = 0x08#8 ∨ opcodeByte w = 0x0A#8 then s.rspOut ++ [0#32] else s.rspOut

/-- The safety mark of 93_implementation_defined for a run of words: some word of it is illegal.
Once set it stays set for the rest of the run. -/
def marked (ws : List Word) : Bool := ws.any (fun w => (wordCause w).isSome)

end Sys2Proof.Machine
end

