-- ==== Sys2Proof/Certificates/Slice0/Obligations.lean ====
section
/-! DEFINITION. The statements for the provers, in the order of the spec's files: encoding, steps,
the commands, the datapath, the envelope, and the whole machine. Each docstring names the rule. -/

open Sys2Proof Sys2Proof.Machine

/-! ### Encoding (30_encoding) -/

/-- R115 and R116: the decoder reads back every command from its word. -/
def Obligations.DecodeOfEncode : Prop := ∀ i : Instr, decode (encode i) = .ok i

/-- R115 and R116 the other way: a word that decodes is the one word of its command. -/
def Obligations.EncodeOfDecode : Prop := ∀ (w : Word) (i : Instr), decode w = .ok i → encode i = w

/-- R118: the worked encodings, each way. -/
def Obligations.WorkedWordsDecode : Prop :=
  ∀ p ∈ [((0x010C000000009C40 : Word), Instr.init 40000 12),
      (0x02010001B80001B8, .setfreq 440 440 1), (0x02000001B8000370, .setfreq 440 880 0),
      (0x0300000000001130, .setmod 4400), (0x0400000000904564, .noteon 0x90 69 100),
      (0x0500000000804500, .noteoff 0x80 69 0), (0x0600000000000000, .tick),
      (0x0700000000000002, .wrreg Reg.ctrl.index 2),
      (0x0704000000000000, .wrreg Reg.shapeIn.index 0),
      (0x0810000000000000, .rdreg Reg.envLevel.index), (0x0963000000008000, .wrnorm 99 32768),
      (0x0A05000000000000, .rdnorm 5)],
    decode p.1 = .ok p.2 ∧ encode p.2 = p.1

/-- R112: opcodes 0x0B to 0xFF raise cause 1, whatever the other bits hold. -/
def Obligations.UndefinedOpcodeRaisesCauseOne : Prop :=
  ∀ (w : Word) (s : State), 0x0B ≤ (opcodeByte w).toNat → Raises w 1 s

/-- R111: one reserved bit set under a defined opcode raises cause 2. -/
def Obligations.ReservedBitRaisesCauseTwo : Prop :=
  ∀ (op : Opcode) (w : Word) (k : Nat) (s : State), opcodeByte w = op.byte →
    op.format.reservedMask.getLsbD k = true → w.getLsbD k = true → Raises w 2 s

/-- R303: the order of the tests, and the rule's two examples. -/
def Obligations.FirstCauseIsRecorded : Prop :=
  (∀ w : Word, 0x0B ≤ (opcodeByte w).toNat → wordCause w = some .undefinedOpcode) ∧
  (∀ (op : Opcode) (w : Word), opcodeByte w = op.byte →
    wordCause w =
      if w &&& op.format.reservedMask ≠ 0#64 then some .reservedBits
      else
        match op with
        | .nop => none
        | .init =>
            if (field w 0 32).toNat = 0 ∨ (field w 48 8).toNat < 1 ∨ 16 < (field w 48 8).toNat
            then some .badInitOperand else none
        | .setfreq => none
        | .setmod => none
        | .noteon => none
        | .noteoff => none
        | .tick => none
        | .wrreg => if 0x06 ≤ (field w 48 8).toNat then some .badRegister else none
        | .rdreg => if 0x14 ≤ (field w 48 8).toNat then some .badRegister else none
        | .wrnorm => if 99 < (field w 48 8).toNat then some .badNormIndex else none
        | .rdnorm => if 99 < (field w 48 8).toNat then some .badNormIndex else none) ∧
  (∀ s : State, Raises 0x0700FF0000000000#64 2 s ∧ Raises 0x01FF000000000000#64 4 s)

/-- R301: an illegal word changes STATUS and nothing else, and the engine goes on; STATUS then holds
R302's code of the cause in R39's layout. -/
def Obligations.IllegalCommandIsPrecise : Prop :=
  ∀ (w : Word) (s : State) (c : Cause) (code : Nat), wordCause w = some c →
    (c, code) ∈ [(Cause.undefinedOpcode, 1), (Cause.reservedBits, 2), (Cause.badRegister, 3),
      (Cause.badInitOperand, 4), (Cause.badNormIndex, 5)] →
    Raises w code s

/-- R116: the words of the eleven mnemonics, and the refusal of an operand that does not fit its
field, which is never cut. -/
def Obligations.AssemblerWordsAreTheTable : Prop :=
  assemble .nop [] = some [.nop] ∧ encode .nop = 0x0000000000000000#64 ∧
  (∀ sr db : Nat, (assemble .init [.num sr, .num db]).map (List.map (fun i => (encode i).toNat)) =
    if sr < 2 ^ 32 ∧ db < 2 ^ 8 then some [0x01 * 2 ^ 56 + db * 2 ^ 48 + sr] else none) ∧
  (∀ fc fm r : Nat,
    (assemble .setfreq [.num fc, .num fm, .num r]).map (List.map (fun i => (encode i).toNat)) =
    if fc < 2 ^ 24 ∧ fm < 2 ^ 24 ∧ r < 2
    then some [0x02 * 2 ^ 56 + r * 2 ^ 48 + fc * 2 ^ 24 + fm] else none) ∧
  (∀ fm : Nat, (assemble .setmod [.num fm]).map (List.map (fun i => (encode i).toNat)) =
    if fm < 2 ^ 24 then some [0x03 * 2 ^ 56 + fm] else none) ∧
  (∀ cmd note vel : Nat,
    (assemble .noteon [.num cmd, .num note, .num vel]).map (List.map (fun i => (encode i).toNat)) =
    if cmd < 2 ^ 8 ∧ note < 2 ^ 8 ∧ vel < 2 ^ 8
    then some [0x04 * 2 ^ 56 + cmd * 2 ^ 16 + note * 2 ^ 8 + vel] else none) ∧
  (∀ cmd note vel : Nat,
    (assemble .noteoff [.num cmd, .num note, .num vel]).map
        (List.map (fun i => (encode i).toNat)) =
    if cmd < 2 ^ 8 ∧ note < 2 ^ 8 ∧ vel < 2 ^ 8
    then some [0x05 * 2 ^ 56 + cmd * 2 ^ 16 + note * 2 ^ 8 + vel] else none) ∧
  assemble .tick [] = some [.tick] ∧ encode .tick = 0x0600000000000000#64 ∧
  (∀ idx val : Nat,
    (assemble .wrreg [.num idx, .num val]).map (List.map (fun i => (encode i).toNat)) =
    if idx < 2 ^ 8 ∧ val < 2 ^ 32 then some [0x07 * 2 ^ 56 + idx * 2 ^ 48 + val] else none) ∧
  (∀ idx : Nat, (assemble .rdreg [.num idx]).map (List.map (fun i => (encode i).toNat)) =
    if idx < 2 ^ 8 then some [0x08 * 2 ^ 56 + idx * 2 ^ 48] else none) ∧
  (∀ k val : Nat,
    (assemble .wrnorm [.num k, .num val]).map (List.map (fun i => (encode i).toNat)) =
    if k < 2 ^ 8 ∧ val < 2 ^ 24 then some [0x09 * 2 ^ 56 + k * 2 ^ 48 + val] else none) ∧
  (∀ k : Nat, (assemble .rdnorm [.num k]).map (List.map (fun i => (encode i).toNat)) =
    if k < 2 ^ 8 then some [0x0A * 2 ^ 56 + k * 2 ^ 48] else none) ∧
  (∀ (r : Reg) (val : Nat),
    assemble .wrreg [.reg r, .num val] = assemble .wrreg [.num r.index.toNat, .num val] ∧
    assemble .rdreg [.reg r] = assemble .rdreg [.num r.index.toNat])

/-- R117: the pseudo-commands are their expansions, for every operand. -/
def Obligations.PseudoCommandsExpand : Prop :=
  (∀ n : Nat, assemble .tickn [.num n] = some (List.replicate n .tick)) ∧
  (∀ fc fm note vel : Nat, assemble .play [.num fc, .num fm, .num note, .num vel] =
    (assemble .setfreq [.num fc, .num fm, .num 1]).bind (fun a =>
      (assemble .noteon [.num 0x90, .num note, .num vel]).map (fun b => a ++ b))) ∧
  (∀ fm note vel : Nat, assemble .legato [.num fm, .num note, .num vel] =
    (assemble .setmod [.num fm]).bind (fun a =>
      (assemble .noteon [.num 0x90, .num note, .num vel]).map (fun b => a ++ b))) ∧
  (∀ note : Nat, assemble .stop [.num note] =
    assemble .noteoff [.num 0x80, .num note, .num 0]) ∧
  (∀ v : Nat, assemble .seta [.num v] = assemble .wrreg [.reg .shapeIn, .num v]) ∧
  assemble .clrstat [] = assemble .wrreg [.reg .status, .num 1]

/-! ### Steps, the command port and reset (20_memory, 70_reset_and_hazards) -/

/-- R82 and R310: a delivered word that decodes is executed on the state it finds, less the word,
whichever agent issued it; a word that does not decode raises its cause. -/
def Obligations.StepRunsTheDecodedCommand : Prop :=
  ∀ (s : State) (w : Word) (ws : List Word) (es : List PortEvent) (a : Agent) (t : State),
    s.arrivals = .word a :: es →
    (a = .control → s.control = w :: ws ∧ t = s.setInput ws s.ticker es) →
    (a = .ticker → s.ticker = w :: ws ∧ t = s.setInput s.control ws es) →
    (∀ i, decode w = .ok i → step s = exec i t) ∧
    (∀ c, decode w = .error c → step s = .next (raiseIllegal (opcodeByte w) c t))

/-- The model's choice of log 1: with nothing arriving a step changes nothing, and an arrival of an
agent with no word left is only used up. -/
def Obligations.StepWithoutAWordIsIdle : Prop :=
  (∀ s : State, s.arrivals = [] → step s = .next s) ∧
  (∀ (s : State) (es : List PortEvent), s.arrivals = .word .control :: es → s.control = [] →
    step s = .next (s.setInput [] s.ticker es)) ∧
  (∀ (s : State) (es : List PortEvent), s.arrivals = .word .ticker :: es → s.ticker = [] →
    step s = .next (s.setInput s.control [] es))

/-- R340, R342 and R343: the reset signal puts every register and NORM entry to its reset value,
writes nothing to a port, and a word lost under it leaves no trace. The ports' histories and the
form of the signal are the model's choice (log 3, log 4). -/
def Obligations.ResetSignalRestoresTheTable : Prop :=
  ∀ (s : State) (lost : Option Agent) (es : List PortEvent), s.arrivals = .reset lost :: es →
    ∃ t, step s = .next t ∧ (∀ r, readReg r t = readReg r State.reset) ∧
      (∀ k, t.norm.read k = 65536#24) ∧ KeepsOutputs s t ∧ t.arrivals = es ∧
      t.control = (if lost = some .control then s.control.tail else s.control) ∧
      t.ticker = (if lost = some .ticker then s.ticker.tail else s.ticker)

/-- R55: what the registers and NORM read at reset. -/
def Obligations.ResetValuesAreTheTable : Prop :=
  readReg .ctrl State.reset = 0 ∧ readReg .attackRate State.reset = 1 ∧
  readReg .decayRate State.reset = 1 ∧ readReg .sustainLevel State.reset = 0 ∧
  readReg .shapeIn State.reset = 0 ∧ readReg .status State.reset = 0 ∧
  readReg .noteState State.reset = 0 ∧ readReg .activeNote State.reset = 0 ∧
  readReg .sampleRate State.reset = 40000 ∧ readReg .dacBits State.reset = 12 ∧
  readReg .outScale State.reset = 2047 ∧ readReg .carStep State.reset = 0 ∧
  readReg .modStep State.reset = 0 ∧ readReg .carAcc State.reset = 0 ∧
  readReg .modAcc State.reset = 0 ∧ readReg .envMode State.reset = 0 ∧
  readReg .envLevel State.reset = 0 ∧ readReg .envStepcnt State.reset = 0 ∧
  readReg .lastCode State.reset = 0 ∧ readReg .lastA State.reset = 0 ∧
  ∀ k, State.reset.norm.read k = 65536#24

/-- R301, R324 and R345: every step of every state answers a next state. -/
def Obligations.EveryStepAnswersNext : Prop := ∀ s : State, ∃ t, step s = .next t

/-- R82: what the port delivers is a merge of the two streams that keeps each one's order, and
every such merge is delivered by one sequence of arrivals, each naming an agent, that depends on the
merge alone and serves every state. Of a run of as many steps as there are arrivals, each naming an
agent, the words executed are `ws`, in order. The arrivals are the model's form of the port (log 1):
in the first half an arrival may name an agent with nothing left, and its step is then idle. -/
def Obligations.PortDeliversExactlyTheMerges : Prop :=
  (∀ (s u : State), (∀ e ∈ s.arrivals, ∃ a, e = .word a) →
    Host.Core.run core s.arrivals.length s = .next u →
    ∃ c t ws : List Word, s.control = c ++ u.control ∧ s.ticker = t ++ u.ticker ∧
      u.arrivals = [] ∧ IsMerge c t ws ∧
      runWords ws (s.setInput u.control u.ticker []) = .next u) ∧
  (∀ (c t ws : List Word), IsMerge c t ws →
    ∃ es : List PortEvent, es.length = ws.length ∧ (∀ e ∈ es, ∃ a, e = .word a) ∧
      ∀ s : State, ∃ u, Host.Core.run core ws.length (s.setInput c t es) = .next u ∧
        runWords ws (s.setInput [] [] []) = .next u)

/-! ### The commands (40_init, 41_frequency, 44_note_and_tick, 45_register_access) -/

/-- R270 and R113: NOP has no effect, and the zero word is NOP. -/
def Obligations.NopHasNoEffect : Prop :=
  ∀ s : State, exec .nop s = .next s ∧ runWord 0#64 s = .next s

/-- R140, R141 and R143: a legal INIT sets the rate, the depth and the output scale, zeroes both
accumulators, and writes nothing else, the steps included. -/
def Obligations.InitSetsRateDepthAndScale : Prop :=
  ∀ (sr : BitVec 32) (db : BitVec 8) (s : State),
    1 ≤ sr.toNat → 1 ≤ db.toNat → db.toNat ≤ 16 →
    ∃ t, exec (.init sr db) s = .next t ∧ readReg .sampleRate t = sr ∧
      (readReg .dacBits t).toNat = db.toNat ∧
      (readReg .outScale t).toNat = (2 ^ db.toNat - 1) / 2 ∧
      (readReg .outScale t).toNat + 1 = 2 ^ (db.toNat - 1) ∧
      readReg .carAcc t = 0 ∧ readReg .modAcc t = 0 ∧
      WritesOnly [.sampleRate, .dacBits, .outScale, .carAcc, .modAcc] s t

/-- R142: an INIT with SR = 0 or DB outside 1 to 16 raises cause 4 and changes no register but
STATUS; any other INIT raises nothing. -/
def Obligations.InitOperandsAreChecked : Prop :=
  ∀ (sr : BitVec 32) (db : BitVec 8) (s : State), ∃ t, exec (.init sr db) s = .next t ∧
    (¬ (1 ≤ sr.toNat ∧ 1 ≤ db.toNat ∧ db.toNat ≤ 16) →
      t.ill = true ∧ t.cause = 4#8 ∧ WritesOnly [.status] s t) ∧
    (1 ≤ sr.toNat ∧ 1 ≤ db.toNat ∧ db.toNat ≤ 16 → t.status = s.status)

/-- R160: the phase step is the quotient rounded down, modulo 2^32; below D the wrap has no effect;
a frequency aliases to its remainder by D; and the rule's examples. -/
def Obligations.PhaseStepIsTheWrappedQuotient : Prop :=
  (∀ (f : BitVec 24) (s : State) (d : Nat), 1 ≤ s.sampleRate.toNat →
    d = s.sampleRate.toNat * (if s.ctrl.getLsbD 3 then 10 else 1) →
    1 ≤ d ∧ d < 2 ^ 36 ∧ f.toNat * 2 ^ 32 < 2 ^ 56 ∧
    (phaseStep f s).toNat = f.toNat * 2 ^ 32 / d % 2 ^ 32 ∧
    (f.toNat < d → (phaseStep f s).toNat = f.toNat * 2 ^ 32 / d) ∧
    (phaseStep f s).toNat = (f.toNat % d) * 2 ^ 32 / d) ∧
  (∀ s : State, s.sampleRate = 40000#32 → s.ctrl.getLsbD 3 = false →
    phaseStep 440#24 s = 47244640#32 ∧ phaseStep 20000#24 s = 0x80000000#32 ∧
    phaseStep 40000#24 s = 0#32 ∧ phaseStep 1#24 s = 107374#32)

/-- R163: the same frequency gives the same step in both modes. -/
def Obligations.FineModeKeepsTheStep : Prop :=
  ∀ (f f10 : BitVec 24) (s : State), 1 ≤ s.sampleRate.toNat → f10.toNat = 10 * f.toNat →
    phaseStep f10 (s.setCtrl (s.ctrl ||| 8#4)) = phaseStep f (s.setCtrl (s.ctrl &&& 7#4))

/-- R161: SETFREQ with R = 1 sets both steps and zeroes both accumulators; with R = 0 it sets the
modulator's step alone, whatever FC. -/
def Obligations.SetfreqSetsTheSteps : Prop :=
  ∀ (fc fm : BitVec 24) (s : State) (d : Nat), 1 ≤ s.sampleRate.toNat →
    d = s.sampleRate.toNat * (if s.ctrl.getLsbD 3 then 10 else 1) →
    (∃ t, exec (.setfreq fc fm 1#1) s = .next t ∧
      (readReg .carStep t).toNat = fc.toNat * 2 ^ 32 / d % 2 ^ 32 ∧
      (readReg .modStep t).toNat = fm.toNat * 2 ^ 32 / d % 2 ^ 32 ∧
      readReg .carAcc t = 0 ∧ readReg .modAcc t = 0 ∧
      WritesOnly [.carStep, .modStep, .carAcc, .modAcc] s t) ∧
    (∃ t, exec (.setfreq fc fm 0#1) s = .next t ∧
      (readReg .modStep t).toNat = fm.toNat * 2 ^ 32 / d % 2 ^ 32 ∧ WritesOnly [.modStep] s t)

/-- R162: SETMOD sets the modulator's step alone, as SETFREQ with R = 0 and any FC does. -/
def Obligations.SetmodSetsTheModulatorStep : Prop :=
  ∀ (fm : BitVec 24) (s : State) (d : Nat), 1 ≤ s.sampleRate.toNat →
    d = s.sampleRate.toNat * (if s.ctrl.getLsbD 3 then 10 else 1) →
    ∃ t, exec (.setmod fm) s = .next t ∧
      (readReg .modStep t).toNat = fm.toNat * 2 ^ 32 / d % 2 ^ 32 ∧ WritesOnly [.modStep] s t ∧
      ∀ fc : BitVec 24, exec (.setfreq fc fm 0#1) s = .next t

/-- R240, R241 and R242: NOTEON restarts the envelope, latches the note and opens the gate, from
every state and for every operand, and writes nothing else, the phases included. -/
def Obligations.NoteonRestartsTheEnvelope : Prop :=
  ∀ (cmd note vel : BitVec 8) (s : State), ∃ t, exec (.noteon cmd note vel) s = .next t ∧
    readReg .envMode t = 0 ∧ readReg .envLevel t = 0 ∧ readReg .envStepcnt t = 0 ∧
    (readReg .activeNote t).toNat = note.toNat ∧
    (readReg .noteState t).toNat =
      2 ^ 24 + cmd.toNat * 2 ^ 16 + note.toNat * 2 ^ 8 + vel.toNat ∧
    t.active = true ∧ WritesOnly [.envMode, .envLevel, .envStepcnt, .activeNote, .noteState] s t

/-- R245: NOTEOFF records the message; ACTIVE falls when NOTE is the latched note and stays
otherwise; the latch, the envelope and the phases stay. -/
def Obligations.NoteoffClosesTheGateOfItsNote : Prop :=
  ∀ (cmd note vel : BitVec 8) (s : State), ∃ t, exec (.noteoff cmd note vel) s = .next t ∧
    (note = s.activeNote → (readReg .noteState t).toNat =
      cmd.toNat * 2 ^ 16 + note.toNat * 2 ^ 8 + vel.toNat) ∧
    (note ≠ s.activeNote → (readReg .noteState t).toNat =
      (if s.active then 2 ^ 24 else 0) + cmd.toNat * 2 ^ 16 + note.toNat * 2 ^ 8 + vel.toNat) ∧
    WritesOnly [.noteState] s t

/-- R251: an inactive TICK changes no state at all. -/
def Obligations.InactiveTickChangesNothing : Prop :=
  ∀ s : State, s.noteState.getLsbD 24 = false → exec .tick s = .next s

/-- R250 and R191: an active TICK. With `e` the state after the envelope's step, A is the shape
parameter of `e` (R220, R221) clamped (R180); S and C are read at bits 31 to 24 of the accumulators
before the advance (R74, R181); the code is R182 to R188 on them; it is emitted and recorded when in
range, else discarded; LAST_A records A; the phases advance; nothing else changes. -/
def Obligations.ActiveTickMakesOneSample : Prop :=
  ∀ (s e : State) (a : BitVec 16) (x sin cos y yn code : Int), s.noteState.getLsbD 24 = true →
    e = envStep Config.env s →
    x = (if s.ctrl.getLsbD 1 then s.shapeIn.toInt
      else if s.ctrl.getLsbD 0 then (e.envLevel.toNat : Int)
      else 65536 - (e.envLevel.toNat : Int)) →
    (a.toNat : Int) = max 0 (min x 65535) →
    sin = sine (BitVec.ofNat 8 (s.carAcc.toNat / 2 ^ 24)) →
    cos = sine (BitVec.ofNat 8 ((s.modAcc.toNat / 2 ^ 24 + 64) % 256)) →
    y = Int.tdiv ((2 ^ 32 - (a.toNat : Int) ^ 2) * sin)
      (2 ^ 32 + (a.toNat : Int) ^ 2 - 2 * a.toNat * cos) →
    yn = (if s.ctrl.getLsbD 2
      then Int.tdiv (y * (s.norm.read (a.toNat * 100 / 65536)).toNat) 65536 else y) →
    code = Int.tdiv (yn * s.outScale.toNat) 65536 + s.outScale.toNat →
    ∃ t, exec .tick s = .next t ∧
      t.dacOut = (if 0 ≤ code ∧ code ≤ 2 ^ s.dacBits.toNat - 1
        then s.dacOut ++ [BitVec.ofInt 16 code] else s.dacOut) ∧
      t.lastCode = (if 0 ≤ code ∧ code ≤ 2 ^ s.dacBits.toNat - 1
        then BitVec.ofInt 16 code else s.lastCode) ∧
      t.lastA = a ∧ t.carAcc = s.carAcc + s.carStep ∧ t.modAcc = s.modAcc + s.modStep ∧
      t.envMode = e.envMode ∧ t.envLevel = e.envLevel ∧ t.envStepcnt = e.envStepcnt ∧
      KeepsRegs [.lastCode, .lastA, .carAcc, .modAcc, .envMode, .envLevel, .envStepcnt] s t ∧
      KeepsNorm s t ∧ t.rspOut = s.rspOut ∧ KeepsInputs s t

/-- R34 to R38 and R271: what a WRREG to each control input stores, and that it writes nothing
else. -/
def Obligations.WrregStoresTheField : Prop :=
  ∀ (v : BitVec 32) (s : State),
    (∃ t, exec (.wrreg 0x00#8 v) s = .next t ∧ (readReg .ctrl t).toNat = v.toNat % 2 ^ 4 ∧
      WritesOnly [.ctrl] s t) ∧
    (∃ t, exec (.wrreg 0x01#8 v) s = .next t ∧ (readReg .attackRate t).toNat = v.toNat % 2 ^ 16 ∧
      WritesOnly [.attackRate] s t) ∧
    (∃ t, exec (.wrreg 0x02#8 v) s = .next t ∧ (readReg .decayRate t).toNat = v.toNat % 2 ^ 16 ∧
      WritesOnly [.decayRate] s t) ∧
    (∃ t, exec (.wrreg 0x03#8 v) s = .next t ∧
      (readReg .sustainLevel t).toNat = min v.toNat 65536 ∧ WritesOnly [.sustainLevel] s t) ∧
    (∃ t, exec (.wrreg 0x04#8 v) s = .next t ∧ readReg .shapeIn t = v ∧
      WritesOnly [.shapeIn] s t)

/-- R39: WRREG STATUS with bit 0 set zeroes ILL and CAUSE, so that STATUS reads 0; with bit 0 clear it changes nothing;
either is legal. -/
def Obligations.StatusIsWriteOneToClear : Prop :=
  ∀ (v : BitVec 32) (s : State), ∃ t, exec (.wrreg 0x05#8 v) s = .next t ∧
    (v.getLsbD 0 = true → readReg .status t = 0#32 ∧ t.ill = false ∧ t.cause = 0#8 ∧
      WritesOnly [.status] s t) ∧
    (v.getLsbD 0 = false → t = s)

/-- R271 and R33: a WRREG to a read-only or undefined index raises cause 3 and writes nothing but
STATUS. -/
def Obligations.WrregToReadOnlyIsIllegal : Prop :=
  ∀ (idx : BitVec 8) (v : BitVec 32) (s : State), 0x06 ≤ idx.toNat →
    ∃ t, exec (.wrreg idx v) s = .next t ∧ t.ill = true ∧ t.cause = 3#8 ∧
      WritesOnly [.status] s t

/-- R80: every register write is idempotent: a second equal WRREG changes nothing more. -/
def Obligations.RegisterWritesAreIdempotent : Prop :=
  ∀ (idx : BitVec 8) (v : BitVec 32) (s : State), ∃ t, exec (.wrreg idx v) s = .next t ∧
    exec (.wrreg idx v) t = .next t

/-- R272 and R276: RDREG answers once with the register that R33's map gives the index, its field
zero-extended (ENV_MODE by R47's numbers), and changes no register; an undefined index answers 0 and
raises cause 3. -/
def Obligations.RdregAnswersWithTheRegister : Prop :=
  (∀ s : State,
    ∀ p ∈ [(0x00#8, Reg.ctrl, s.ctrl.setWidth 32),
        (0x01#8, Reg.attackRate, s.attackRate.setWidth 32),
        (0x02#8, Reg.decayRate, s.decayRate.setWidth 32),
        (0x03#8, Reg.sustainLevel, s.sustainLevel.setWidth 32),
        (0x04#8, Reg.shapeIn, s.shapeIn),
        (0x05#8, Reg.status, s.status.setWidth 32),
        (0x06#8, Reg.noteState, s.noteState.setWidth 32),
        (0x07#8, Reg.activeNote, s.activeNote.setWidth 32),
        (0x08#8, Reg.sampleRate, s.sampleRate),
        (0x09#8, Reg.dacBits, s.dacBits.setWidth 32),
        (0x0A#8, Reg.outScale, s.outScale.setWidth 32),
        (0x0B#8, Reg.carStep, s.carStep),
        (0x0C#8, Reg.modStep, s.modStep),
        (0x0D#8, Reg.carAcc, s.carAcc),
        (0x0E#8, Reg.modAcc, s.modAcc),
        (0x0F#8, Reg.envMode,
          if s.envMode = .attack then 0#32 else if s.envMode = .decay then 1#32
          else if s.envMode = .sustain then 2#32 else 3#32),
        (0x10#8, Reg.envLevel, s.envLevel.setWidth 32),
        (0x11#8, Reg.envStepcnt, s.envStepcnt),
        (0x12#8, Reg.lastCode, s.lastCode.setWidth 32),
        (0x13#8, Reg.lastA, s.lastA.setWidth 32)],
      p.2.1.index = p.1 ∧ readReg p.2.1 s = p.2.2 ∧
      ∃ t, exec (.rdreg p.1) s = .next t ∧ t.rspOut = s.rspOut ++ [p.2.2] ∧ KeepsRegs [] s t ∧
        KeepsNorm s t ∧ t.dacOut = s.dacOut ∧ KeepsInputs s t) ∧
  (∀ idx : BitVec 8, idx.toNat ≤ 0x13 → ∃ r : Reg, r.index = idx) ∧
  (∀ (idx : BitVec 8) (s : State), 0x14 ≤ idx.toNat →
    ∃ t, exec (.rdreg idx) s = .next t ∧ t.rspOut = s.rspOut ++ [0#32] ∧
      t.ill = true ∧ t.cause = 3#8 ∧ KeepsRegs [.status] s t ∧ KeepsNorm s t ∧
      t.dacOut = s.dacOut ∧ KeepsInputs s t)

/-- R273: WRNORM writes one entry and nothing else; an index above 99 raises cause 5. -/
def Obligations.WrnormWritesOneEntry : Prop :=
  ∀ (idx : BitVec 8) (v : BitVec 24) (s : State),
    (idx.toNat ≤ 99 → ∃ t, exec (.wrnorm idx v) s = .next t ∧ t.norm.read idx.toNat = v ∧
      (∀ k, k ≠ idx.toNat → t.norm.read k = s.norm.read k) ∧ KeepsRegs [] s t ∧
      KeepsOutputs s t ∧ KeepsInputs s t) ∧
    (99 < idx.toNat → ∃ t, exec (.wrnorm idx v) s = .next t ∧ t.ill = true ∧ t.cause = 5#8 ∧
      WritesOnly [.status] s t)

/-- R274 and R273: RDNORM answers once with the entry, which is what the last WRNORM to it wrote; an
index above 99 answers 0 and raises cause 5. -/
def Obligations.RdnormAnswersWithTheEntry : Prop :=
  ∀ (idx : BitVec 8) (s : State),
    (idx.toNat ≤ 99 → ∃ t, exec (.rdnorm idx) s = .next t ∧
      t.rspOut = s.rspOut ++ [(s.norm.read idx.toNat).setWidth 32] ∧ KeepsRegs [] s t ∧
      KeepsNorm s t ∧ t.dacOut = s.dacOut ∧ KeepsInputs s t) ∧
    (idx.toNat ≤ 99 → ∀ v : BitVec 24, ∃ u t, exec (.wrnorm idx v) s = .next u ∧
      exec (.rdnorm idx) u = .next t ∧ t.rspOut = s.rspOut ++ [v.setWidth 32]) ∧
    (99 < idx.toNat → ∃ t, exec (.rdnorm idx) s = .next t ∧ t.rspOut = s.rspOut ++ [0#32] ∧
      t.ill = true ∧ t.cause = 5#8 ∧ KeepsRegs [.status] s t ∧ KeepsNorm s t ∧
      t.dacOut = s.dacOut ∧ KeepsInputs s t)

/-! ### The sample datapath (42_sample_datapath) -/

/-- R180: the clamp's three cases, its range, that it is idempotent, that it is constant beyond its
ends, and the rule's examples. -/
def Obligations.ClampKeepsTheHalfOpenRange : Prop :=
  (∀ x : Int, x < 0 → clampA x = 0#16) ∧
  (∀ x : Int, 65536 ≤ x → (clampA x).toNat = 65535) ∧
  (∀ x : Int, 0 ≤ x → x < 65536 → ((clampA x).toNat : Int) = x) ∧
  (∀ x : Int, (clampA x).toNat ≤ 65535) ∧
  (∀ x : Int, clampA ((clampA x).toNat : Int) = clampA x) ∧
  (∀ x : Int, 65535 ≤ x → clampA x = clampA 65535) ∧ (∀ x : Int, x < 0 → clampA x = clampA 0) ∧
  clampA (-1) = 0#16 ∧ clampA 32768 = 32768#16 ∧ clampA 65536 = 65535#16 ∧
  clampA (2 ^ 31 - 1) = 65535#16

/-- R182: NUM and DEN as exact integers, with the rule's bounds, for every A and every pair of table
indices; and the tables that their S and C are read from: the sine ROM by R72's rows for indices 0 to
63 and R72's checks, which carry those rows to every index, and the cosine view of it by R73. -/
def Obligations.NumeratorAndDenominatorBounds : Prop :=
  (∀ (a : BitVec 16) (ci mi : BitVec 8),
    dsfNum a (sine ci) = (2 ^ 32 - (a.toNat : Int) * a.toNat) * sine ci ∧
    dsfDen a (cosine mi) = 2 ^ 32 + (a.toNat : Int) * a.toNat - 2 * a.toNat * cosine mi ∧
    0 < (2 ^ 32 - (a.toNat : Int) * a.toNat) ∧ (2 ^ 32 - (a.toNat : Int) * a.toNat) ≤ 2 ^ 32 ∧
    |dsfNum a (sine ci)| ≤ 2 ^ 48 ∧ 1 ≤ dsfDen a (cosine mi) ∧
    dsfDen a (cosine mi) ≤ 2 ^ 32 + 65535 ^ 2 + 2 * 65535 * 65536 ∧
    dsfDen a (cosine mi) < 2 ^ 34) ∧
  (∀ r ∈ [((0 : Nat), [(0 : Int), 1608, 3216, 4821, 6424, 8022, 9616, 11204,
        12785, 14359, 15924, 17479, 19024, 20557, 22078, 23586]),
      (16, [25080, 26558, 28020, 29466, 30893, 32303, 33692, 35062,
        36410, 37736, 39040, 40320, 41576, 42806, 44011, 45190]),
      (32, [46341, 47464, 48559, 49624, 50660, 51665, 52639, 53581,
        54491, 55368, 56212, 57022, 57798, 58538, 59244, 59914]),
      (48, [60547, 61145, 61705, 62228, 62714, 63162, 63572, 63944,
        64277, 64571, 64827, 65043, 65220, 65358, 65457, 65516])],
    (List.range 16).map (fun k => sine (BitVec.ofNat 8 (r.1 + k))) = r.2) ∧
  sine 0#8 = 0 ∧ sine 128#8 = 0 ∧ sine 64#8 = 65536 ∧ sine 192#8 = -65536 ∧
  (∀ i : BitVec 8, i.toNat < 128 → sine (128#8 + i) = -sine i) ∧
  (∀ i : BitVec 8, i.toNat ≤ 64 → sine (64#8 - i) = sine (64#8 + i)) ∧
  ((List.range 256).map (fun k => sine (BitVec.ofNat 8 k))).sum = 0 ∧
  (∀ i : BitVec 8, cosine i = sine (BitVec.ofNat 8 ((i.toNat + 64) % 256)) ∧
    |cosine i| ≤ 65536) ∧
  cosine 0#8 = 65536 ∧ cosine 64#8 = 0 ∧ cosine 128#8 = -65536 ∧ cosine 192#8 = 0

/-- R183: the quotient truncates toward zero, takes the sign of S, is 0 exactly as the rule says, is
S itself at A = 0; and the eight rows of the rule's table. -/
def Obligations.QuotientFollowsTheSine : Prop :=
  (∀ (a : BitVec 16) (ci mi : BitVec 8) (y num den : Int),
    y = dsfQuotient a (sine ci) (cosine mi) → num = dsfNum a (sine ci) →
    den = dsfDen a (cosine mi) →
    y = Int.sign num * (|num| / den) ∧ (0 < sine ci → 0 ≤ y) ∧ (sine ci < 0 → y ≤ 0) ∧
    (y = 0 ↔ sine ci = 0 ∨ |num| < den) ∧ (a = 0#16 → y = sine ci)) ∧
  ∀ r ∈ [((0#16, 32#8, 77#8), ((46341 : Int), (-20557 : Int)),
        ((199033079463936 : Int), (4294967296 : Int), (46341 : Int))),
      ((32768#16, 64#8, 0#8), (65536, 65536), (211106232532992, 1073741824, 196608)),
      ((32768#16, 64#8, 128#8), (65536, -65536), (211106232532992, 9663676416, 21845)),
      ((32768#16, 192#8, 0#8), (-65536, 65536), (-211106232532992, 1073741824, -196608)),
      ((16384#16, 32#8, 32#8), (46341, 46341), (186593511997440, 3044900864, 61280)),
      ((65535#16, 64#8, 0#8), (65536, 65536), (8589869056, 1, 8589869056)),
      ((65535#16, 64#8, 128#8), (65536, -65536), (8589869056, 17179607041, 0)),
      ((65535#16, 0#8, 0#8), (0, 65536), (0, 1, 0))],
    sine r.1.2.1 = r.2.1.1 ∧ cosine r.1.2.2 = r.2.1.2 ∧
    dsfNum r.1.1 r.2.1.1 = r.2.2.1 ∧ dsfDen r.1.1 r.2.1.2 = r.2.2.2.1 ∧
    dsfQuotient r.1.1 r.2.1.1 r.2.1.2 = r.2.2.2.2

/-- R184: DEN is at least (65536 - A)², which is at least 1; it is 1 exactly at A = 65535 with C =
65536, and C = 65536 holds only for index 0. -/
def Obligations.DenominatorIsPositive : Prop :=
  ∀ (a : BitVec 16) (mi : BitVec 8),
    cosine mi ≤ 65536 ∧ (65536 - (a.toNat : Int)) ^ 2 ≤ dsfDen a (cosine mi) ∧
    1 ≤ (65536 - (a.toNat : Int)) ^ 2 ∧
    (dsfDen a (cosine mi) = 1 ↔ a.toNat = 65535 ∧ cosine mi = 65536) ∧
    (cosine mi = 65536 ↔ mi = 0#8)

/-- R185: the bound on the quotient, its largest value, and that the peak is reached where C is 1.0. -/
def Obligations.QuotientIsBounded : Prop :=
  (∀ (a : BitVec 16) (ci mi : BitVec 8),
    |dsfQuotient a (sine ci) (cosine mi)| ≤
      65536 * (65536 + (a.toNat : Int)) / (65536 - (a.toNat : Int)) ∧
    |dsfQuotient a (sine ci) (cosine mi)| ≤ 8589869056 ∧
    dsfQuotient a (sine 64#8) (cosine 0#8) =
      65536 * (65536 + (a.toNat : Int)) / (65536 - (a.toNat : Int))) ∧
  dsfQuotient 65535#16 (sine 64#8) (cosine 0#8) = 8589869056 ∧
  dsfQuotient 65535#16 (sine 192#8) (cosine 0#8) = -8589869056 ∧ (8589869056 : Int) < 2 ^ 33

/-- R186: the bucket of A is floor(A · 100 / 65536), from 0 to 99; every bucket holds 655 or 656
consecutive values; and the rule's examples. -/
def Obligations.NormBucketsAreEven : Prop :=
  (∀ a : BitVec 16, normIndex a = a.toNat * 100 / 65536 ∧ normIndex a ≤ 99) ∧
  (∀ k : Nat, k ≤ 99 → ∃ lo n : Nat, (n = 655 ∨ n = 656) ∧ lo + n ≤ 65536 ∧
    ∀ a : BitVec 16, normIndex a = k ↔ lo ≤ a.toNat ∧ a.toNat < lo + n) ∧
  normIndex 0#16 = 0 ∧ normIndex 655#16 = 0 ∧ normIndex 656#16 = 1 ∧ normIndex 32767#16 = 49 ∧
  normIndex 32768#16 = 50 ∧ normIndex 65535#16 = 99

/-- R187: the normalisation step, its bounds, the identity at 1.0, silence at 0, and the rule's
example. -/
def Obligations.NormalisationScalesByTheBucket : Prop :=
  (∀ (a : BitVec 16) (y : Int) (s : State), s.ctrl.getLsbD 2 = false → normalise a y s = y) ∧
  (∀ (a : BitVec 16) (y : Int) (s : State) (f : Int), s.ctrl.getLsbD 2 = true →
    f = (s.norm.read (a.toNat * 100 / 65536)).toNat →
    normalise a y s = Int.tdiv (y * f) 65536 ∧ (|y| < 2 ^ 33 → |y * f| < 2 ^ 57) ∧
    (|y| < 2 ^ 33 → |normalise a y s| < 2 ^ 41) ∧ (f = 65536 → normalise a y s = y) ∧
    (f = 0 → normalise a y s = 0 ∧
      outputCode s.outScale (normalise a y s) = s.outScale.toNat) ∧
    (y = 196608 → f = 21845 → normalise a y s = 65535))

/-- R188: the output mapping; codes lie symmetrically about the offset; and the rule's examples at 12
bits. -/
def Obligations.OutputCodesAreSymmetric : Prop :=
  (∀ (scale : BitVec 15) (yn : Int),
    outputCode scale yn = Int.tdiv (yn * scale.toNat) 65536 + scale.toNat ∧
    (|yn| < 2 ^ 41 → |yn * scale.toNat| < 2 ^ 56) ∧
    outputCode scale yn - scale.toNat = scale.toNat - outputCode scale (-yn)) ∧
  outputCode 2047#15 65536 = 4094 ∧ outputCode 2047#15 0 = 2047 ∧
  outputCode 2047#15 (-65536) = 0 ∧ outputCode 2047#15 46341 = 3494 ∧
  outputCode 2047#15 32768 = 3070 ∧ outputCode 2047#15 (-32768) = 1024 ∧
  outputCode 2047#15 65538 = 4094 ∧ outputCode 2047#15 196608 = 8188

/-- R189: with the engine's scale for its depth, every code of a sample within full scale is in
range, from 0 to 2 · OUT_SCALE. -/
def Obligations.FullScaleCodesAreInRange : Prop :=
  ∀ (s : State) (yn : Int), EngineInv s → |yn| ≤ 65536 →
    0 ≤ outputCode s.outScale yn ∧ outputCode s.outScale yn ≤ 2 * s.outScale.toNat ∧
    2 * s.outScale.toNat + 2 ≤ 2 ^ s.dacBits.toNat ∧
    codeInRange s.dacBits (outputCode s.outScale yn) = true

/-- R190 and R74: the phases advance by their steps modulo 2^32, whether the code is emitted or not;
the table index of an accumulator is its bits 31 to 24, and it continues modulo 256, as R190's
example shows. -/
def Obligations.PhasesAdvanceModulo : Prop :=
  (∀ s : State, s.noteState.getLsbD 24 = true → ∃ t, exec .tick s = .next t ∧
    t.carAcc.toNat = (s.carAcc.toNat + s.carStep.toNat) % 2 ^ 32 ∧
    t.modAcc.toNat = (s.modAcc.toNat + s.modStep.toNat) % 2 ^ 32 ∧
    (s.carAcc = 0xFF000000#32 → s.carStep = 0x01000000#32 →
      t.carAcc = 0#32 ∧ tableIndex t.carAcc = 0#8)) ∧
  ∀ acc : BitVec 32, (tableIndex acc).toNat = acc.toNat / 2 ^ 24

/-- R17: a signed 64-bit datapath holds every value of the sample computation, in every state. -/
def Obligations.DatapathFitsSixtyFourBits : Prop :=
  ∀ (a : BitVec 16) (s : State) (sin cos y yn : Int),
    sin = sine (BitVec.ofNat 8 (s.carAcc.toNat / 2 ^ 24)) →
    cos = sine (BitVec.ofNat 8 ((s.modAcc.toNat / 2 ^ 24 + 64) % 256)) →
    y = rawSample a s → yn = normalise a y s →
    ∀ v ∈ [sin, cos, (a.toNat : Int) * a.toNat, 2 * (a.toNat : Int) * cos, dsfNum a sin,
      dsfDen a cos, y, y * (s.norm.read (normIndex a)).toNat, yn, yn * s.outScale.toNat,
      sampleCode a s], -(2 ^ 63) ≤ v ∧ v < 2 ^ 63

/-! ### The envelope and the shape parameter (43_envelope) -/

/-- R214 and R215: a tick in Attack, for every admitted ENV_STEP and ENV_MAX. -/
def Obligations.AttackStepSaturatesThenDecays : Prop :=
  ∀ (p : Config.EnvParams) (s t : State) (ra l : Nat), p.Legal → s.envMode = .attack →
    t = envStep p s → ra = max s.attackRate.toNat 1 →
    l = (if s.envStepcnt.toNat % ra = 0 then min (s.envLevel.toNat + p.step) p.max
      else s.envLevel.toNat) →
    t.envLevel.toNat = l ∧
    (p.max ≤ l → t.envMode = .decay ∧ t.envStepcnt = 0#32) ∧
    (l < p.max → t.envMode = .attack ∧
      t.envStepcnt.toNat = (s.envStepcnt.toNat + 1) % 2 ^ 32) ∧
    KeepsRegs [.envMode, .envLevel, .envStepcnt] s t

/-- R216 and R217: a tick in Decay, for every admitted ENV_STEP and ENV_MAX. -/
def Obligations.DecayStepFallsThenSustains : Prop :=
  ∀ (p : Config.EnvParams) (s t : State) (rd : Nat) (l : Int), p.Legal → s.envMode = .decay →
    t = envStep p s → rd = max s.decayRate.toNat 1 →
    l = (if s.envStepcnt.toNat % rd = 0 then max ((s.envLevel.toNat : Int) - p.step) 0
      else s.envLevel.toNat) →
    (t.envLevel.toNat : Int) = l ∧
    (l ≤ s.sustainLevel.toNat → t.envMode = .sustain ∧ t.envStepcnt = 0#32) ∧
    (s.sustainLevel.toNat < l → t.envMode = .decay ∧
      t.envStepcnt.toNat = (s.envStepcnt.toNat + 1) % 2 ^ 32) ∧
    KeepsRegs [.envMode, .envLevel, .envStepcnt] s t

/-- R218: every Sustain tick takes the live SUSTAIN_LEVEL and leaves mode and counter; only NOTEON
leaves Sustain. -/
def Obligations.SustainFollowsTheLiveLevel : Prop :=
  (∀ s : State, s.active = true → s.envMode = .sustain → ∃ t, exec .tick s = .next t ∧
    t.envLevel = s.sustainLevel ∧ t.envMode = .sustain ∧ t.envStepcnt = s.envStepcnt) ∧
  (∀ (w : Word) (s : State), s.envMode = .sustain → opcodeByte w ≠ 0x04#8 →
    ∃ t, runWord w s = .next t ∧ t.envMode = .sustain)

/-- R219: no command brings Release about, and an envelope step in it changes nothing. -/
def Obligations.ReleaseIsANoOp : Prop :=
  (∀ (w : Word) (s : State), s.envMode ≠ .release →
    ∃ t, runWord w s = .next t ∧ t.envMode ≠ .release) ∧
  (∀ (p : Config.EnvParams) (s : State), s.envMode = .release → envStep p s = s)

/-- R212: a stored rate of 0 behaves as 1, and the level then moves on every tick. -/
def Obligations.RateZeroActsAsOne : Prop :=
  (∀ (p : Config.EnvParams) (s : State),
    envStep p (s.setAttackRate 0#16) = (envStep p (s.setAttackRate 1#16)).setAttackRate 0#16 ∧
    envStep p (s.setDecayRate 0#16) = (envStep p (s.setDecayRate 1#16)).setDecayRate 0#16) ∧
  (∀ s : State, levelMoves 0#16 s = true ∧ levelMoves 1#16 s = true)

/-- R220 and R221: the shape parameter from each source, with the level within 0 to 1.0. -/
def Obligations.ShapeFollowsItsSource : Prop :=
  ∀ s : State, s.envLevel.toNat ≤ 65536 →
    (s.ctrl.getLsbD 1 = true → shapeA s = clampA s.shapeIn.toInt) ∧
    (s.ctrl.getLsbD 1 = false → s.ctrl.getLsbD 0 = true →
      (shapeA s).toNat = min s.envLevel.toNat 65535) ∧
    (s.ctrl.getLsbD 1 = false → s.ctrl.getLsbD 0 = false →
      (shapeA s).toNat = min (65536 - s.envLevel.toNat) 65535)

/-- R222: a TICK that starts in Attack does not lower the level, and one that starts in Decay does
not raise it, whatever the rates. -/
def Obligations.EnvelopeIsMonotone : Prop :=
  ∀ s : State, EngineInv s → ∃ t, exec .tick s = .next t ∧
    (s.envMode = .attack → s.envLevel.toNat ≤ t.envLevel.toNat) ∧
    (s.envMode = .decay → t.envLevel.toNat ≤ s.envLevel.toNat)

/-- R223: from NOTEON with a constant rate r, Attack lasts exactly 255 · max(r, 1) + 1 active ticks,
the level rising by one step every max(r, 1) ticks. -/
def Obligations.AttackLengthIsExact : Prop :=
  ∀ (cmd note vel : BitVec 8) (s : State) (ra : Nat), ra = max s.attackRate.toNat 1 →
    ∃ s0, exec (.noteon cmd note vel) s = .next s0 ∧
      (∀ n : Nat, n ≤ 255 * ra → ∃ t, runTicks n s0 = .next t ∧ t.envMode = .attack ∧
        t.envLevel.toNat = 256 * ((n + ra - 1) / ra) ∧ t.envStepcnt.toNat = n) ∧
      (∃ t, runTicks (255 * ra + 1) s0 = .next t ∧ t.envMode = .decay ∧
        t.envLevel.toNat = 65536 ∧ t.envStepcnt = 0#32)

/-- R217: from the top of the envelope with a constant rate and sustain level, Decay lasts exactly
(j - 1) · rd + 1 active ticks; the last of them keeps the decremented level. -/
def Obligations.DecayLengthIsExact : Prop :=
  ∀ (s : State) (rd sus j : Nat), s.active = true → s.envMode = .decay →
    s.envLevel = 65536#17 → s.envStepcnt = 0#32 → rd = max s.decayRate.toNat 1 →
    sus = s.sustainLevel.toNat → sus ≤ 65536 → j = max 1 ((65536 - sus + 255) / 256) →
    (∀ n : Nat, n ≤ (j - 1) * rd → ∃ t, runTicks n s = .next t ∧ t.envMode = .decay ∧
      t.envLevel.toNat = 65536 - 256 * ((n + rd - 1) / rd)) ∧
    (∃ t, runTicks ((j - 1) * rd + 1) s = .next t ∧ t.envMode = .sustain ∧
      t.envLevel.toNat = 65536 - 256 * j ∧ t.envStepcnt = 0#32)

/-! ### The whole machine -/

/-- R56: the reset state has the engine's invariants. -/
def Obligations.InvariantHoldsAtReset : Prop := EngineInv State.reset

/-- R56 and R224: every step keeps the engine's invariants, from every state that has them. -/
def Obligations.StepKeepsTheInvariant : Prop :=
  ∀ s t : State, EngineInv s → step s = .next t → EngineInv t

/-- R275: a word changes only the registers that the table lets it, STATUS apart when it is illegal,
and only WRNORM changes NORM. -/
def Obligations.OnlyListedWordsWrite : Prop :=
  ∀ (w : Word) (s : State), ∃ t, runWord w s = .next t ∧
    (∀ r : Reg, readReg r t ≠ readReg r s →
      (r = .status ∧ (wordCause w).isSome) ∨
      ∃ op : Opcode, opcodeByte w = op.byte ∧ wordCause w = none ∧ mayWrite op w s r = true) ∧
    (∀ k, t.norm.read k ≠ s.norm.read k →
      opcodeByte w = 0x09#8 ∧ wordCause w = none ∧ k = (field w 48 8).toNat)

/-- R252 and R50: a word makes at most one DAC write, only as an active TICK, with a code within the
configured depth, and LAST_CODE is then that code; without one LAST_CODE stays. -/
def Obligations.DacWritesStayInRange : Prop :=
  ∀ (w : Word) (s : State), EngineInv s → ∃ t, runWord w s = .next t ∧
    ((t.dacOut = s.dacOut ∧ t.lastCode = s.lastCode) ∨
      (∃ code : BitVec 16, t.dacOut = s.dacOut ++ [code] ∧ t.lastCode = code ∧
        code.toNat ≤ 2 ^ s.dacBits.toNat - 1 ∧ w = encode .tick ∧ s.active = true))

/-- R276: over any words, each read word adds exactly one response, in order, and no other word adds
any; an illegal read's response is 0. -/
def Obligations.ResponsesCountTheReads : Prop :=
  (∀ (ws : List Word) (s : State), ∃ t new, runWords ws s = .next t ∧
    t.rspOut = s.rspOut ++ new ∧
    new.length = ws.countP (fun w => opcodeByte w = 0x08#8 ∨ opcodeByte w = 0x0A#8)) ∧
  (∀ (w : Word) (c : Cause) (s : State), wordCause w = some c →
    opcodeByte w = 0x08#8 ∨ opcodeByte w = 0x0A#8 →
    ∃ t, runWord w s = .next t ∧ t.rspOut = s.rspOut ++ [0#32])

/-- R246: after a matching NOTEOFF no word but a NOTEON makes a DAC write, opens the gate or moves
the envelope. -/
def Obligations.SilenceUntilNoteon : Prop :=
  ∀ (cmd vel : BitVec 8) (ws : List Word) (s : State), (∀ w ∈ ws, opcodeByte w ≠ 0x04#8) →
    ∃ t, runWords (encode (.noteoff cmd s.activeNote vel) :: ws) s = .next t ∧
      t.active = false ∧ t.dacOut = s.dacOut ∧ t.envMode = s.envMode ∧
      t.envLevel = s.envLevel ∧ t.envStepcnt = s.envStepcnt

/-- R40, R50 and R51: what is heard does not depend on the note's message fields, on STATUS or on
the observation registers: states alike in all else make the same DAC writes over any words. -/
def Obligations.ObservationsAreNotHeard : Prop :=
  ∀ (ws : List Word) (s t : State), SameSound s t →
    ∃ s' t', runWords ws s = .next s' ∧ runWords ws t = .next t' ∧ SameSound s' t' ∧
      s'.dacOut = t'.dacOut
end

