-- ==== Sys2Proof/Laws/Config.lean ====
section
/-! SUPPORT. The parameters as numbers, for arithmetic (R14, 00_scope). -/

namespace Sys2Proof.Config

@[simp] theorem one_eq : one = 65536 := rfl
@[simp] theorem aMax_eq : aMax = 65535 := rfl
@[simp] theorem normLevels_eq : normLevels = 100 := rfl
@[simp] theorem dacBitsMin_eq : dacBitsMin = 1 := rfl
@[simp] theorem dacBitsMax_eq : dacBitsMax = 16 := rfl
@[simp] theorem rateMin_eq : rateMin = 1 := rfl
@[simp] theorem fineMul_eq : fineMul = 10 := rfl
@[simp] theorem env_step : env.step = 256 := rfl
@[simp] theorem env_max : env.max = 65536 := rfl

/-- The values the machine uses are admitted (R14). -/
theorem env_legal : env.Legal := by decide

end Sys2Proof.Config
end

