-- ==== Sys2Proof/Laws/Datapath.lean ====
section
/-! SUPPORT. The bounds of the sine table and the laws of truncating division that the datapath's
rules rest on (R17, 00_scope; R72, R73, 20_memory). -/

namespace Sys2Proof.Machine

set_option maxRecDepth 8000 in
/-- Every entry lies from -1.0 to 1.0. -/
theorem sine_bound (i : BitVec 8) : -65536 ≤ sine i ∧ sine i ≤ 65536 := by
  have h : ∀ n : Fin 256, -65536 ≤ sine (BitVec.ofFin n) ∧ sine (BitVec.ofFin n) ≤ 65536 := by
    decide
  exact h i.toFin

set_option maxRecDepth 8000 in
/-- 1.0 stands at index 64 only. -/
theorem sine_eq_one (i : BitVec 8) : sine i = 65536 ↔ i = 64#8 := by
  have h : ∀ n : Fin 256, sine (BitVec.ofFin n) = 65536 ↔ BitVec.ofFin n = 64#8 := by decide
  exact h i.toFin

theorem cosine_bound (i : BitVec 8) : -65536 ≤ cosine i ∧ cosine i ≤ 65536 := sine_bound _

theorem cosine_eq_one (i : BitVec 8) : cosine i = 65536 ↔ i = 0#8 := by
  unfold cosine; rw [sine_eq_one]
  constructor <;> intro h <;> bv_omega

/-- The table index as a quotient (R74). -/
theorem tableIndex_eq (acc : BitVec 32) : tableIndex acc = BitVec.ofNat 8 (acc.toNat / 2 ^ 24) := by
  apply BitVec.eq_of_toNat_eq
  simp [tableIndex, Nat.shiftRight_eq_div_pow]

/-- The cosine's place in the sine ROM, counted modulo 256 (R73, R181). -/
theorem cosine_tableIndex (acc : BitVec 32) :
    cosine (tableIndex acc) = sine (BitVec.ofNat 8 ((acc.toNat / 2 ^ 24 + 64) % 256)) := by
  rw [tableIndex_eq, cosine]
  congr 1
  apply BitVec.eq_of_toNat_eq
  simp

/-- The clamp as a bound from both sides (R180). -/
theorem clampA_eq {x : Int} {a : BitVec 16} (h : (a.toNat : Int) = max 0 (min x 65535)) :
    clampA x = a := by
  apply BitVec.eq_of_toNat_eq
  simp only [clampA, Config.one, Config.aMax]
  split
  · simp; omega
  · split
    · simp; omega
    · rw [BitVec.toNat_ofInt]; omega

/-- The size of a truncated quotient is the quotient of the sizes. -/
theorem abs_tdiv (x : Int) {d : Int} (hd : 0 < d) : |Int.tdiv x d| = |x| / d := by
  rcases le_total 0 x with h | h
  · rw [Int.tdiv_eq_ediv_of_nonneg h, abs_of_nonneg h, abs_of_nonneg (Int.ediv_nonneg h hd.le)]
  · have h' : 0 ≤ -x := by omega
    rw [show x = -(-x) by ring, Int.neg_tdiv, Int.tdiv_eq_ediv_of_nonneg h', abs_neg, abs_neg,
      abs_of_nonneg h', abs_of_nonneg (Int.ediv_nonneg h' hd.le)]

/-- A truncated quotient takes its sign from the dividend. -/
theorem tdiv_eq_sign_mul (x d : Int) :
    Int.tdiv x d = Int.sign x * (|x| / d) := by
  rcases lt_trichotomy 0 x with h | h | h
  · rw [Int.tdiv_eq_ediv_of_nonneg h.le, abs_of_pos h, Int.sign_eq_one_of_pos h, one_mul]
  · subst h; simp
  · have h' : 0 ≤ -x := by omega
    rw [Int.sign_eq_neg_one_of_neg h, abs_of_neg h]
    conv_lhs => rw [show x = -(-x) by ring, Int.neg_tdiv, Int.tdiv_eq_ediv_of_nonneg h']
    ring

end Sys2Proof.Machine
end

