-- ==== Sys2Proof/Laws/Decode.lean ====
section
/-! SUPPORT. The bits of a placed field, and the opcode map read both ways. -/

namespace Sys2Proof

/-- A bit of a placed field. -/
theorem getLsbD_place {n : Nat} (v : BitVec n) (lo i : Nat) :
    (place v lo).getLsbD i = (decide (i < 64) && !decide (i < lo) && v.getLsbD (i - lo)) := by
  simp only [place, BitVec.getLsbD_shiftLeft, BitVec.getLsbD_setWidth]
  by_cases h : i < 64 <;> by_cases h2 : i < lo <;> simp [h, h2]
  omega

/-- A bit of a field. -/
theorem getLsbD_field (w : Word) (lo n i : Nat) :
    (field w lo n).getLsbD i = (decide (i < n) && w.getLsbD (lo + i)) := by
  simp only [field, BitVec.getLsbD_extractLsb']

/-- A field of a union is the union of the fields. -/
theorem field_or (v w : Word) (lo n : Nat) :
    field (v ||| w) lo n = field v lo n ||| field w lo n := by
  apply BitVec.eq_of_getLsbD_eq
  intro i hi
  simp only [BitVec.getLsbD_or, getLsbD_field, hi, decide_true, Bool.true_and]

/-- A placed field is read back where it was placed. -/
theorem field_place_same {n : Nat} (v : BitVec n) {lo : Nat} (h : lo + n ≤ 64) :
    field (place v lo) lo n = v := by
  apply BitVec.eq_of_getLsbD_eq
  intro i hi
  rw [getLsbD_field, getLsbD_place, Nat.add_sub_cancel_left]
  simp [hi]
  omega

/-- A placed field is not seen elsewhere. -/
theorem field_place_apart {n : Nat} (v : BitVec n) {lo at' m : Nat}
    (h : at' + m ≤ lo ∨ lo + n ≤ at') : field (place v lo) at' m = 0#m := by
  apply BitVec.eq_of_getLsbD_eq
  intro i hi
  rw [getLsbD_field, getLsbD_place, BitVec.getLsbD_zero]
  rcases h with h | h
  · have : at' + i < lo := by omega
    simp [this]
  · rw [BitVec.getLsbD_of_ge v _ (by omega)]
    simp

/-- A placed field meets no mask that leaves its place free. -/
theorem place_and_mask {n : Nat} (v : BitVec n) {lo : Nat} {m : Word}
    (h : place (BitVec.allOnes n) lo &&& m = 0#64) : place v lo &&& m = 0#64 := by
  apply BitVec.eq_of_getLsbD_eq
  intro i hi
  have hb := congrArg (fun u => BitVec.getLsbD u i) h
  simp only [BitVec.getLsbD_and, getLsbD_place, BitVec.getLsbD_allOnes, BitVec.getLsbD_zero] at hb ⊢
  by_cases hlt : i - lo < n
  · cases v.getLsbD (i - lo) <;> simp_all
  · rw [BitVec.getLsbD_of_ge v _ (by omega)]
    simp

/-- A union meets no mask that its parts do not meet. -/
theorem or_and_mask {v w m : Word} (hv : v &&& m = 0#64) (hw : w &&& m = 0#64) :
    (v ||| w) &&& m = 0#64 := by
  apply BitVec.eq_of_getLsbD_eq
  intro i hi
  have h1 := congrArg (fun u => BitVec.getLsbD u i) hv
  have h2 := congrArg (fun u => BitVec.getLsbD u i) hw
  simp only [BitVec.getLsbD_and, BitVec.getLsbD_or, BitVec.getLsbD_zero] at h1 h2 ⊢
  rw [Bool.and_or_distrib_right, h1, h2]; rfl

/-- The value of a placed field. -/
theorem toNat_place {n : Nat} (v : BitVec n) {lo : Nat} (h : lo + n ≤ 64) :
    (place v lo).toNat = v.toNat * 2 ^ lo := by
  have hv : v.toNat * 2 ^ lo < 2 ^ 64 :=
    calc v.toNat * 2 ^ lo < 2 ^ n * 2 ^ lo := Nat.mul_lt_mul_of_pos_right v.isLt (by positivity)
      _ = 2 ^ (lo + n) := by rw [← Nat.pow_add, Nat.add_comm]
      _ ≤ 2 ^ 64 := Nat.pow_le_pow_right (by decide) h
  have hs : v.toNat < 2 ^ 64 :=
    lt_of_lt_of_le v.isLt (Nat.pow_le_pow_right (by decide) (by omega))
  rw [place, BitVec.toNat_shiftLeft, BitVec.toNat_setWidth, Nat.mod_eq_of_lt hs, Nat.shiftLeft_eq,
    Nat.mod_eq_of_lt hv]

/-- A union with a field below is a sum. -/
theorem toNat_place_or {n : Nat} (v : BitVec n) {lo : Nat} (w : Word) (h : lo + n ≤ 64)
    (hw : w.toNat < 2 ^ lo) : (place v lo ||| w).toNat = v.toNat * 2 ^ lo + w.toNat := by
  rw [BitVec.toNat_or, toNat_place v h, Nat.mul_comm, Nat.two_pow_add_eq_or_of_lt hw]

/-- The opcode map is one to one (R110, 30_encoding). -/
theorem Opcode.ofByte_byte (op : Opcode) : Opcode.ofByte op.byte = some op := by
  cases op <;> rfl

/-- No byte but an opcode's own reads as it (R110, R112, 30_encoding). -/
theorem Opcode.byte_ofByte {b : BitVec 8} {op : Opcode} (h : Opcode.ofByte b = some op) :
    op.byte = b := by
  unfold Opcode.ofByte at h
  apply BitVec.eq_of_toNat_eq
  split at h <;> simp_all [Opcode.byte] <;> subst h <;> simp [*]

/-- The opcode of a command made from a word's fields. -/
theorem Opcode.opcode_read (op : Opcode) (w : Word) : (op.read w).opcode = op := by
  cases op <;> rfl

/-- Bytes 0x0B to 0xFF name no opcode (R112, 30_encoding). -/
theorem Opcode.ofByte_none {b : BitVec 8} (h : 0x0B ≤ b.toNat) : Opcode.ofByte b = none := by
  unfold Opcode.ofByte; split <;> first | omega | rfl

/-- A word that decodes has a defined opcode, clear reserved bits, and its fields as operands. -/
theorem decode_ok {w : Word} {i : Instr} (h : decode w = .ok i) :
    opcodeByte w = i.opcode.byte ∧ w &&& i.opcode.format.reservedMask = 0#64 ∧
      i.opcode.read w = i := by
  unfold decode at h
  split at h
  · cases h
  · rename_i op ho
    split at h
    · rename_i hm
      cases h
      rw [Opcode.opcode_read]
      exact ⟨(Opcode.byte_ofByte ho).symm, hm, rfl⟩
    · cases h

/-- The decode algorithm on a word whose opcode is known. -/
theorem decode_opcode {w : Word} {op : Opcode} (h : opcodeByte w = op.byte) :
    decode w =
      if w &&& op.format.reservedMask = 0#64 then .ok (op.read w) else .error .reservedBits := by
  simp only [decode, h, Opcode.ofByte_byte]

/-- A word meets a mask when one bit is set in both. -/
theorem and_ne_zero {w m : Word} {k : Nat} (hm : m.getLsbD k = true) (hw : w.getLsbD k = true) :
    w &&& m ≠ 0#64 := by
  intro h
  have := congrArg (fun v => BitVec.getLsbD v k) h
  simp [hm, hw] at this

end Sys2Proof
end

