-- ==== Sys2Proof/Laws/State.lean ====
section
/-! SUPPORT. One lemma per field per update of State, each true by rfl, so that no later proof
unfolds a record update. -/

namespace Sys2Proof.Machine

variable (s : State)

@[simp] theorem State.setCtrl_ctrl (v : BitVec 4) : (s.setCtrl v).ctrl = v := rfl
@[simp] theorem State.setCtrl_attackRate (v : BitVec 4) : (s.setCtrl v).attackRate = s.attackRate := rfl
@[simp] theorem State.setCtrl_decayRate (v : BitVec 4) : (s.setCtrl v).decayRate = s.decayRate := rfl
@[simp] theorem State.setCtrl_sustainLevel (v : BitVec 4) : (s.setCtrl v).sustainLevel = s.sustainLevel := rfl
@[simp] theorem State.setCtrl_shapeIn (v : BitVec 4) : (s.setCtrl v).shapeIn = s.shapeIn := rfl
@[simp] theorem State.setCtrl_status (v : BitVec 4) : (s.setCtrl v).status = s.status := rfl
@[simp] theorem State.setCtrl_noteState (v : BitVec 4) : (s.setCtrl v).noteState = s.noteState := rfl
@[simp] theorem State.setCtrl_activeNote (v : BitVec 4) : (s.setCtrl v).activeNote = s.activeNote := rfl
@[simp] theorem State.setCtrl_sampleRate (v : BitVec 4) : (s.setCtrl v).sampleRate = s.sampleRate := rfl
@[simp] theorem State.setCtrl_dacBits (v : BitVec 4) : (s.setCtrl v).dacBits = s.dacBits := rfl
@[simp] theorem State.setCtrl_outScale (v : BitVec 4) : (s.setCtrl v).outScale = s.outScale := rfl
@[simp] theorem State.setCtrl_carStep (v : BitVec 4) : (s.setCtrl v).carStep = s.carStep := rfl
@[simp] theorem State.setCtrl_modStep (v : BitVec 4) : (s.setCtrl v).modStep = s.modStep := rfl
@[simp] theorem State.setCtrl_carAcc (v : BitVec 4) : (s.setCtrl v).carAcc = s.carAcc := rfl
@[simp] theorem State.setCtrl_modAcc (v : BitVec 4) : (s.setCtrl v).modAcc = s.modAcc := rfl
@[simp] theorem State.setCtrl_envMode (v : BitVec 4) : (s.setCtrl v).envMode = s.envMode := rfl
@[simp] theorem State.setCtrl_envLevel (v : BitVec 4) : (s.setCtrl v).envLevel = s.envLevel := rfl
@[simp] theorem State.setCtrl_envStepcnt (v : BitVec 4) : (s.setCtrl v).envStepcnt = s.envStepcnt := rfl
@[simp] theorem State.setCtrl_lastCode (v : BitVec 4) : (s.setCtrl v).lastCode = s.lastCode := rfl
@[simp] theorem State.setCtrl_lastA (v : BitVec 4) : (s.setCtrl v).lastA = s.lastA := rfl
@[simp] theorem State.setCtrl_norm (v : BitVec 4) : (s.setCtrl v).norm = s.norm := rfl
@[simp] theorem State.setCtrl_dacOut (v : BitVec 4) : (s.setCtrl v).dacOut = s.dacOut := rfl
@[simp] theorem State.setCtrl_rspOut (v : BitVec 4) : (s.setCtrl v).rspOut = s.rspOut := rfl
@[simp] theorem State.setCtrl_control (v : BitVec 4) : (s.setCtrl v).control = s.control := rfl
@[simp] theorem State.setCtrl_ticker (v : BitVec 4) : (s.setCtrl v).ticker = s.ticker := rfl
@[simp] theorem State.setCtrl_arrivals (v : BitVec 4) : (s.setCtrl v).arrivals = s.arrivals := rfl

@[simp] theorem State.setAttackRate_ctrl (v : BitVec 16) : (s.setAttackRate v).ctrl = s.ctrl := rfl
@[simp] theorem State.setAttackRate_attackRate (v : BitVec 16) : (s.setAttackRate v).attackRate = v := rfl
@[simp] theorem State.setAttackRate_decayRate (v : BitVec 16) : (s.setAttackRate v).decayRate = s.decayRate := rfl
@[simp] theorem State.setAttackRate_sustainLevel (v : BitVec 16) : (s.setAttackRate v).sustainLevel = s.sustainLevel := rfl
@[simp] theorem State.setAttackRate_shapeIn (v : BitVec 16) : (s.setAttackRate v).shapeIn = s.shapeIn := rfl
@[simp] theorem State.setAttackRate_status (v : BitVec 16) : (s.setAttackRate v).status = s.status := rfl
@[simp] theorem State.setAttackRate_noteState (v : BitVec 16) : (s.setAttackRate v).noteState = s.noteState := rfl
@[simp] theorem State.setAttackRate_activeNote (v : BitVec 16) : (s.setAttackRate v).activeNote = s.activeNote := rfl
@[simp] theorem State.setAttackRate_sampleRate (v : BitVec 16) : (s.setAttackRate v).sampleRate = s.sampleRate := rfl
@[simp] theorem State.setAttackRate_dacBits (v : BitVec 16) : (s.setAttackRate v).dacBits = s.dacBits := rfl
@[simp] theorem State.setAttackRate_outScale (v : BitVec 16) : (s.setAttackRate v).outScale = s.outScale := rfl
@[simp] theorem State.setAttackRate_carStep (v : BitVec 16) : (s.setAttackRate v).carStep = s.carStep := rfl
@[simp] theorem State.setAttackRate_modStep (v : BitVec 16) : (s.setAttackRate v).modStep = s.modStep := rfl
@[simp] theorem State.setAttackRate_carAcc (v : BitVec 16) : (s.setAttackRate v).carAcc = s.carAcc := rfl
@[simp] theorem State.setAttackRate_modAcc (v : BitVec 16) : (s.setAttackRate v).modAcc = s.modAcc := rfl
@[simp] theorem State.setAttackRate_envMode (v : BitVec 16) : (s.setAttackRate v).envMode = s.envMode := rfl
@[simp] theorem State.setAttackRate_envLevel (v : BitVec 16) : (s.setAttackRate v).envLevel = s.envLevel := rfl
@[simp] theorem State.setAttackRate_envStepcnt (v : BitVec 16) : (s.setAttackRate v).envStepcnt = s.envStepcnt := rfl
@[simp] theorem State.setAttackRate_lastCode (v : BitVec 16) : (s.setAttackRate v).lastCode = s.lastCode := rfl
@[simp] theorem State.setAttackRate_lastA (v : BitVec 16) : (s.setAttackRate v).lastA = s.lastA := rfl
@[simp] theorem State.setAttackRate_norm (v : BitVec 16) : (s.setAttackRate v).norm = s.norm := rfl
@[simp] theorem State.setAttackRate_dacOut (v : BitVec 16) : (s.setAttackRate v).dacOut = s.dacOut := rfl
@[simp] theorem State.setAttackRate_rspOut (v : BitVec 16) : (s.setAttackRate v).rspOut = s.rspOut := rfl
@[simp] theorem State.setAttackRate_control (v : BitVec 16) : (s.setAttackRate v).control = s.control := rfl
@[simp] theorem State.setAttackRate_ticker (v : BitVec 16) : (s.setAttackRate v).ticker = s.ticker := rfl
@[simp] theorem State.setAttackRate_arrivals (v : BitVec 16) : (s.setAttackRate v).arrivals = s.arrivals := rfl

@[simp] theorem State.setDecayRate_ctrl (v : BitVec 16) : (s.setDecayRate v).ctrl = s.ctrl := rfl
@[simp] theorem State.setDecayRate_attackRate (v : BitVec 16) : (s.setDecayRate v).attackRate = s.attackRate := rfl
@[simp] theorem State.setDecayRate_decayRate (v : BitVec 16) : (s.setDecayRate v).decayRate = v := rfl
@[simp] theorem State.setDecayRate_sustainLevel (v : BitVec 16) : (s.setDecayRate v).sustainLevel = s.sustainLevel := rfl
@[simp] theorem State.setDecayRate_shapeIn (v : BitVec 16) : (s.setDecayRate v).shapeIn = s.shapeIn := rfl
@[simp] theorem State.setDecayRate_status (v : BitVec 16) : (s.setDecayRate v).status = s.status := rfl
@[simp] theorem State.setDecayRate_noteState (v : BitVec 16) : (s.setDecayRate v).noteState = s.noteState := rfl
@[simp] theorem State.setDecayRate_activeNote (v : BitVec 16) : (s.setDecayRate v).activeNote = s.activeNote := rfl
@[simp] theorem State.setDecayRate_sampleRate (v : BitVec 16) : (s.setDecayRate v).sampleRate = s.sampleRate := rfl
@[simp] theorem State.setDecayRate_dacBits (v : BitVec 16) : (s.setDecayRate v).dacBits = s.dacBits := rfl
@[simp] theorem State.setDecayRate_outScale (v : BitVec 16) : (s.setDecayRate v).outScale = s.outScale := rfl
@[simp] theorem State.setDecayRate_carStep (v : BitVec 16) : (s.setDecayRate v).carStep = s.carStep := rfl
@[simp] theorem State.setDecayRate_modStep (v : BitVec 16) : (s.setDecayRate v).modStep = s.modStep := rfl
@[simp] theorem State.setDecayRate_carAcc (v : BitVec 16) : (s.setDecayRate v).carAcc = s.carAcc := rfl
@[simp] theorem State.setDecayRate_modAcc (v : BitVec 16) : (s.setDecayRate v).modAcc = s.modAcc := rfl
@[simp] theorem State.setDecayRate_envMode (v : BitVec 16) : (s.setDecayRate v).envMode = s.envMode := rfl
@[simp] theorem State.setDecayRate_envLevel (v : BitVec 16) : (s.setDecayRate v).envLevel = s.envLevel := rfl
@[simp] theorem State.setDecayRate_envStepcnt (v : BitVec 16) : (s.setDecayRate v).envStepcnt = s.envStepcnt := rfl
@[simp] theorem State.setDecayRate_lastCode (v : BitVec 16) : (s.setDecayRate v).lastCode = s.lastCode := rfl
@[simp] theorem State.setDecayRate_lastA (v : BitVec 16) : (s.setDecayRate v).lastA = s.lastA := rfl
@[simp] theorem State.setDecayRate_norm (v : BitVec 16) : (s.setDecayRate v).norm = s.norm := rfl
@[simp] theorem State.setDecayRate_dacOut (v : BitVec 16) : (s.setDecayRate v).dacOut = s.dacOut := rfl
@[simp] theorem State.setDecayRate_rspOut (v : BitVec 16) : (s.setDecayRate v).rspOut = s.rspOut := rfl
@[simp] theorem State.setDecayRate_control (v : BitVec 16) : (s.setDecayRate v).control = s.control := rfl
@[simp] theorem State.setDecayRate_ticker (v : BitVec 16) : (s.setDecayRate v).ticker = s.ticker := rfl
@[simp] theorem State.setDecayRate_arrivals (v : BitVec 16) : (s.setDecayRate v).arrivals = s.arrivals := rfl

@[simp] theorem State.setSustainLevel_ctrl (v : BitVec 17) : (s.setSustainLevel v).ctrl = s.ctrl := rfl
@[simp] theorem State.setSustainLevel_attackRate (v : BitVec 17) : (s.setSustainLevel v).attackRate = s.attackRate := rfl
@[simp] theorem State.setSustainLevel_decayRate (v : BitVec 17) : (s.setSustainLevel v).decayRate = s.decayRate := rfl
@[simp] theorem State.setSustainLevel_sustainLevel (v : BitVec 17) : (s.setSustainLevel v).sustainLevel = v := rfl
@[simp] theorem State.setSustainLevel_shapeIn (v : BitVec 17) : (s.setSustainLevel v).shapeIn = s.shapeIn := rfl
@[simp] theorem State.setSustainLevel_status (v : BitVec 17) : (s.setSustainLevel v).status = s.status := rfl
@[simp] theorem State.setSustainLevel_noteState (v : BitVec 17) : (s.setSustainLevel v).noteState = s.noteState := rfl
@[simp] theorem State.setSustainLevel_activeNote (v : BitVec 17) : (s.setSustainLevel v).activeNote = s.activeNote := rfl
@[simp] theorem State.setSustainLevel_sampleRate (v : BitVec 17) : (s.setSustainLevel v).sampleRate = s.sampleRate := rfl
@[simp] theorem State.setSustainLevel_dacBits (v : BitVec 17) : (s.setSustainLevel v).dacBits = s.dacBits := rfl
@[simp] theorem State.setSustainLevel_outScale (v : BitVec 17) : (s.setSustainLevel v).outScale = s.outScale := rfl
@[simp] theorem State.setSustainLevel_carStep (v : BitVec 17) : (s.setSustainLevel v).carStep = s.carStep := rfl
@[simp] theorem State.setSustainLevel_modStep (v : BitVec 17) : (s.setSustainLevel v).modStep = s.modStep := rfl
@[simp] theorem State.setSustainLevel_carAcc (v : BitVec 17) : (s.setSustainLevel v).carAcc = s.carAcc := rfl
@[simp] theorem State.setSustainLevel_modAcc (v : BitVec 17) : (s.setSustainLevel v).modAcc = s.modAcc := rfl
@[simp] theorem State.setSustainLevel_envMode (v : BitVec 17) : (s.setSustainLevel v).envMode = s.envMode := rfl
@[simp] theorem State.setSustainLevel_envLevel (v : BitVec 17) : (s.setSustainLevel v).envLevel = s.envLevel := rfl
@[simp] theorem State.setSustainLevel_envStepcnt (v : BitVec 17) : (s.setSustainLevel v).envStepcnt = s.envStepcnt := rfl
@[simp] theorem State.setSustainLevel_lastCode (v : BitVec 17) : (s.setSustainLevel v).lastCode = s.lastCode := rfl
@[simp] theorem State.setSustainLevel_lastA (v : BitVec 17) : (s.setSustainLevel v).lastA = s.lastA := rfl
@[simp] theorem State.setSustainLevel_norm (v : BitVec 17) : (s.setSustainLevel v).norm = s.norm := rfl
@[simp] theorem State.setSustainLevel_dacOut (v : BitVec 17) : (s.setSustainLevel v).dacOut = s.dacOut := rfl
@[simp] theorem State.setSustainLevel_rspOut (v : BitVec 17) : (s.setSustainLevel v).rspOut = s.rspOut := rfl
@[simp] theorem State.setSustainLevel_control (v : BitVec 17) : (s.setSustainLevel v).control = s.control := rfl
@[simp] theorem State.setSustainLevel_ticker (v : BitVec 17) : (s.setSustainLevel v).ticker = s.ticker := rfl
@[simp] theorem State.setSustainLevel_arrivals (v : BitVec 17) : (s.setSustainLevel v).arrivals = s.arrivals := rfl

@[simp] theorem State.setShapeIn_ctrl (v : BitVec 32) : (s.setShapeIn v).ctrl = s.ctrl := rfl
@[simp] theorem State.setShapeIn_attackRate (v : BitVec 32) : (s.setShapeIn v).attackRate = s.attackRate := rfl
@[simp] theorem State.setShapeIn_decayRate (v : BitVec 32) : (s.setShapeIn v).decayRate = s.decayRate := rfl
@[simp] theorem State.setShapeIn_sustainLevel (v : BitVec 32) : (s.setShapeIn v).sustainLevel = s.sustainLevel := rfl
@[simp] theorem State.setShapeIn_shapeIn (v : BitVec 32) : (s.setShapeIn v).shapeIn = v := rfl
@[simp] theorem State.setShapeIn_status (v : BitVec 32) : (s.setShapeIn v).status = s.status := rfl
@[simp] theorem State.setShapeIn_noteState (v : BitVec 32) : (s.setShapeIn v).noteState = s.noteState := rfl
@[simp] theorem State.setShapeIn_activeNote (v : BitVec 32) : (s.setShapeIn v).activeNote = s.activeNote := rfl
@[simp] theorem State.setShapeIn_sampleRate (v : BitVec 32) : (s.setShapeIn v).sampleRate = s.sampleRate := rfl
@[simp] theorem State.setShapeIn_dacBits (v : BitVec 32) : (s.setShapeIn v).dacBits = s.dacBits := rfl
@[simp] theorem State.setShapeIn_outScale (v : BitVec 32) : (s.setShapeIn v).outScale = s.outScale := rfl
@[simp] theorem State.setShapeIn_carStep (v : BitVec 32) : (s.setShapeIn v).carStep = s.carStep := rfl
@[simp] theorem State.setShapeIn_modStep (v : BitVec 32) : (s.setShapeIn v).modStep = s.modStep := rfl
@[simp] theorem State.setShapeIn_carAcc (v : BitVec 32) : (s.setShapeIn v).carAcc = s.carAcc := rfl
@[simp] theorem State.setShapeIn_modAcc (v : BitVec 32) : (s.setShapeIn v).modAcc = s.modAcc := rfl
@[simp] theorem State.setShapeIn_envMode (v : BitVec 32) : (s.setShapeIn v).envMode = s.envMode := rfl
@[simp] theorem State.setShapeIn_envLevel (v : BitVec 32) : (s.setShapeIn v).envLevel = s.envLevel := rfl
@[simp] theorem State.setShapeIn_envStepcnt (v : BitVec 32) : (s.setShapeIn v).envStepcnt = s.envStepcnt := rfl
@[simp] theorem State.setShapeIn_lastCode (v : BitVec 32) : (s.setShapeIn v).lastCode = s.lastCode := rfl
@[simp] theorem State.setShapeIn_lastA (v : BitVec 32) : (s.setShapeIn v).lastA = s.lastA := rfl
@[simp] theorem State.setShapeIn_norm (v : BitVec 32) : (s.setShapeIn v).norm = s.norm := rfl
@[simp] theorem State.setShapeIn_dacOut (v : BitVec 32) : (s.setShapeIn v).dacOut = s.dacOut := rfl
@[simp] theorem State.setShapeIn_rspOut (v : BitVec 32) : (s.setShapeIn v).rspOut = s.rspOut := rfl
@[simp] theorem State.setShapeIn_control (v : BitVec 32) : (s.setShapeIn v).control = s.control := rfl
@[simp] theorem State.setShapeIn_ticker (v : BitVec 32) : (s.setShapeIn v).ticker = s.ticker := rfl
@[simp] theorem State.setShapeIn_arrivals (v : BitVec 32) : (s.setShapeIn v).arrivals = s.arrivals := rfl

@[simp] theorem State.setStatus_ctrl (v : BitVec 16) : (s.setStatus v).ctrl = s.ctrl := rfl
@[simp] theorem State.setStatus_attackRate (v : BitVec 16) : (s.setStatus v).attackRate = s.attackRate := rfl
@[simp] theorem State.setStatus_decayRate (v : BitVec 16) : (s.setStatus v).decayRate = s.decayRate := rfl
@[simp] theorem State.setStatus_sustainLevel (v : BitVec 16) : (s.setStatus v).sustainLevel = s.sustainLevel := rfl
@[simp] theorem State.setStatus_shapeIn (v : BitVec 16) : (s.setStatus v).shapeIn = s.shapeIn := rfl
@[simp] theorem State.setStatus_status (v : BitVec 16) : (s.setStatus v).status = v := rfl
@[simp] theorem State.setStatus_noteState (v : BitVec 16) : (s.setStatus v).noteState = s.noteState := rfl
@[simp] theorem State.setStatus_activeNote (v : BitVec 16) : (s.setStatus v).activeNote = s.activeNote := rfl
@[simp] theorem State.setStatus_sampleRate (v : BitVec 16) : (s.setStatus v).sampleRate = s.sampleRate := rfl
@[simp] theorem State.setStatus_dacBits (v : BitVec 16) : (s.setStatus v).dacBits = s.dacBits := rfl
@[simp] theorem State.setStatus_outScale (v : BitVec 16) : (s.setStatus v).outScale = s.outScale := rfl
@[simp] theorem State.setStatus_carStep (v : BitVec 16) : (s.setStatus v).carStep = s.carStep := rfl
@[simp] theorem State.setStatus_modStep (v : BitVec 16) : (s.setStatus v).modStep = s.modStep := rfl
@[simp] theorem State.setStatus_carAcc (v : BitVec 16) : (s.setStatus v).carAcc = s.carAcc := rfl
@[simp] theorem State.setStatus_modAcc (v : BitVec 16) : (s.setStatus v).modAcc = s.modAcc := rfl
@[simp] theorem State.setStatus_envMode (v : BitVec 16) : (s.setStatus v).envMode = s.envMode := rfl
@[simp] theorem State.setStatus_envLevel (v : BitVec 16) : (s.setStatus v).envLevel = s.envLevel := rfl
@[simp] theorem State.setStatus_envStepcnt (v : BitVec 16) : (s.setStatus v).envStepcnt = s.envStepcnt := rfl
@[simp] theorem State.setStatus_lastCode (v : BitVec 16) : (s.setStatus v).lastCode = s.lastCode := rfl
@[simp] theorem State.setStatus_lastA (v : BitVec 16) : (s.setStatus v).lastA = s.lastA := rfl
@[simp] theorem State.setStatus_norm (v : BitVec 16) : (s.setStatus v).norm = s.norm := rfl
@[simp] theorem State.setStatus_dacOut (v : BitVec 16) : (s.setStatus v).dacOut = s.dacOut := rfl
@[simp] theorem State.setStatus_rspOut (v : BitVec 16) : (s.setStatus v).rspOut = s.rspOut := rfl
@[simp] theorem State.setStatus_control (v : BitVec 16) : (s.setStatus v).control = s.control := rfl
@[simp] theorem State.setStatus_ticker (v : BitVec 16) : (s.setStatus v).ticker = s.ticker := rfl
@[simp] theorem State.setStatus_arrivals (v : BitVec 16) : (s.setStatus v).arrivals = s.arrivals := rfl

@[simp] theorem State.setNoteState_ctrl (v : BitVec 25) : (s.setNoteState v).ctrl = s.ctrl := rfl
@[simp] theorem State.setNoteState_attackRate (v : BitVec 25) : (s.setNoteState v).attackRate = s.attackRate := rfl
@[simp] theorem State.setNoteState_decayRate (v : BitVec 25) : (s.setNoteState v).decayRate = s.decayRate := rfl
@[simp] theorem State.setNoteState_sustainLevel (v : BitVec 25) : (s.setNoteState v).sustainLevel = s.sustainLevel := rfl
@[simp] theorem State.setNoteState_shapeIn (v : BitVec 25) : (s.setNoteState v).shapeIn = s.shapeIn := rfl
@[simp] theorem State.setNoteState_status (v : BitVec 25) : (s.setNoteState v).status = s.status := rfl
@[simp] theorem State.setNoteState_noteState (v : BitVec 25) : (s.setNoteState v).noteState = v := rfl
@[simp] theorem State.setNoteState_activeNote (v : BitVec 25) : (s.setNoteState v).activeNote = s.activeNote := rfl
@[simp] theorem State.setNoteState_sampleRate (v : BitVec 25) : (s.setNoteState v).sampleRate = s.sampleRate := rfl
@[simp] theorem State.setNoteState_dacBits (v : BitVec 25) : (s.setNoteState v).dacBits = s.dacBits := rfl
@[simp] theorem State.setNoteState_outScale (v : BitVec 25) : (s.setNoteState v).outScale = s.outScale := rfl
@[simp] theorem State.setNoteState_carStep (v : BitVec 25) : (s.setNoteState v).carStep = s.carStep := rfl
@[simp] theorem State.setNoteState_modStep (v : BitVec 25) : (s.setNoteState v).modStep = s.modStep := rfl
@[simp] theorem State.setNoteState_carAcc (v : BitVec 25) : (s.setNoteState v).carAcc = s.carAcc := rfl
@[simp] theorem State.setNoteState_modAcc (v : BitVec 25) : (s.setNoteState v).modAcc = s.modAcc := rfl
@[simp] theorem State.setNoteState_envMode (v : BitVec 25) : (s.setNoteState v).envMode = s.envMode := rfl
@[simp] theorem State.setNoteState_envLevel (v : BitVec 25) : (s.setNoteState v).envLevel = s.envLevel := rfl
@[simp] theorem State.setNoteState_envStepcnt (v : BitVec 25) : (s.setNoteState v).envStepcnt = s.envStepcnt := rfl
@[simp] theorem State.setNoteState_lastCode (v : BitVec 25) : (s.setNoteState v).lastCode = s.lastCode := rfl
@[simp] theorem State.setNoteState_lastA (v : BitVec 25) : (s.setNoteState v).lastA = s.lastA := rfl
@[simp] theorem State.setNoteState_norm (v : BitVec 25) : (s.setNoteState v).norm = s.norm := rfl
@[simp] theorem State.setNoteState_dacOut (v : BitVec 25) : (s.setNoteState v).dacOut = s.dacOut := rfl
@[simp] theorem State.setNoteState_rspOut (v : BitVec 25) : (s.setNoteState v).rspOut = s.rspOut := rfl
@[simp] theorem State.setNoteState_control (v : BitVec 25) : (s.setNoteState v).control = s.control := rfl
@[simp] theorem State.setNoteState_ticker (v : BitVec 25) : (s.setNoteState v).ticker = s.ticker := rfl
@[simp] theorem State.setNoteState_arrivals (v : BitVec 25) : (s.setNoteState v).arrivals = s.arrivals := rfl

@[simp] theorem State.setActiveNote_ctrl (v : BitVec 8) : (s.setActiveNote v).ctrl = s.ctrl := rfl
@[simp] theorem State.setActiveNote_attackRate (v : BitVec 8) : (s.setActiveNote v).attackRate = s.attackRate := rfl
@[simp] theorem State.setActiveNote_decayRate (v : BitVec 8) : (s.setActiveNote v).decayRate = s.decayRate := rfl
@[simp] theorem State.setActiveNote_sustainLevel (v : BitVec 8) : (s.setActiveNote v).sustainLevel = s.sustainLevel := rfl
@[simp] theorem State.setActiveNote_shapeIn (v : BitVec 8) : (s.setActiveNote v).shapeIn = s.shapeIn := rfl
@[simp] theorem State.setActiveNote_status (v : BitVec 8) : (s.setActiveNote v).status = s.status := rfl
@[simp] theorem State.setActiveNote_noteState (v : BitVec 8) : (s.setActiveNote v).noteState = s.noteState := rfl
@[simp] theorem State.setActiveNote_activeNote (v : BitVec 8) : (s.setActiveNote v).activeNote = v := rfl
@[simp] theorem State.setActiveNote_sampleRate (v : BitVec 8) : (s.setActiveNote v).sampleRate = s.sampleRate := rfl
@[simp] theorem State.setActiveNote_dacBits (v : BitVec 8) : (s.setActiveNote v).dacBits = s.dacBits := rfl
@[simp] theorem State.setActiveNote_outScale (v : BitVec 8) : (s.setActiveNote v).outScale = s.outScale := rfl
@[simp] theorem State.setActiveNote_carStep (v : BitVec 8) : (s.setActiveNote v).carStep = s.carStep := rfl
@[simp] theorem State.setActiveNote_modStep (v : BitVec 8) : (s.setActiveNote v).modStep = s.modStep := rfl
@[simp] theorem State.setActiveNote_carAcc (v : BitVec 8) : (s.setActiveNote v).carAcc = s.carAcc := rfl
@[simp] theorem State.setActiveNote_modAcc (v : BitVec 8) : (s.setActiveNote v).modAcc = s.modAcc := rfl
@[simp] theorem State.setActiveNote_envMode (v : BitVec 8) : (s.setActiveNote v).envMode = s.envMode := rfl
@[simp] theorem State.setActiveNote_envLevel (v : BitVec 8) : (s.setActiveNote v).envLevel = s.envLevel := rfl
@[simp] theorem State.setActiveNote_envStepcnt (v : BitVec 8) : (s.setActiveNote v).envStepcnt = s.envStepcnt := rfl
@[simp] theorem State.setActiveNote_lastCode (v : BitVec 8) : (s.setActiveNote v).lastCode = s.lastCode := rfl
@[simp] theorem State.setActiveNote_lastA (v : BitVec 8) : (s.setActiveNote v).lastA = s.lastA := rfl
@[simp] theorem State.setActiveNote_norm (v : BitVec 8) : (s.setActiveNote v).norm = s.norm := rfl
@[simp] theorem State.setActiveNote_dacOut (v : BitVec 8) : (s.setActiveNote v).dacOut = s.dacOut := rfl
@[simp] theorem State.setActiveNote_rspOut (v : BitVec 8) : (s.setActiveNote v).rspOut = s.rspOut := rfl
@[simp] theorem State.setActiveNote_control (v : BitVec 8) : (s.setActiveNote v).control = s.control := rfl
@[simp] theorem State.setActiveNote_ticker (v : BitVec 8) : (s.setActiveNote v).ticker = s.ticker := rfl
@[simp] theorem State.setActiveNote_arrivals (v : BitVec 8) : (s.setActiveNote v).arrivals = s.arrivals := rfl

@[simp] theorem State.setFormat_ctrl (rate : BitVec 32) (bits : BitVec 5) (scale : BitVec 15) : (s.setFormat rate bits scale).ctrl = s.ctrl := rfl
@[simp] theorem State.setFormat_attackRate (rate : BitVec 32) (bits : BitVec 5) (scale : BitVec 15) : (s.setFormat rate bits scale).attackRate = s.attackRate := rfl
@[simp] theorem State.setFormat_decayRate (rate : BitVec 32) (bits : BitVec 5) (scale : BitVec 15) : (s.setFormat rate bits scale).decayRate = s.decayRate := rfl
@[simp] theorem State.setFormat_sustainLevel (rate : BitVec 32) (bits : BitVec 5) (scale : BitVec 15) : (s.setFormat rate bits scale).sustainLevel = s.sustainLevel := rfl
@[simp] theorem State.setFormat_shapeIn (rate : BitVec 32) (bits : BitVec 5) (scale : BitVec 15) : (s.setFormat rate bits scale).shapeIn = s.shapeIn := rfl
@[simp] theorem State.setFormat_status (rate : BitVec 32) (bits : BitVec 5) (scale : BitVec 15) : (s.setFormat rate bits scale).status = s.status := rfl
@[simp] theorem State.setFormat_noteState (rate : BitVec 32) (bits : BitVec 5) (scale : BitVec 15) : (s.setFormat rate bits scale).noteState = s.noteState := rfl
@[simp] theorem State.setFormat_activeNote (rate : BitVec 32) (bits : BitVec 5) (scale : BitVec 15) : (s.setFormat rate bits scale).activeNote = s.activeNote := rfl
@[simp] theorem State.setFormat_sampleRate (rate : BitVec 32) (bits : BitVec 5) (scale : BitVec 15) : (s.setFormat rate bits scale).sampleRate = rate := rfl
@[simp] theorem State.setFormat_dacBits (rate : BitVec 32) (bits : BitVec 5) (scale : BitVec 15) : (s.setFormat rate bits scale).dacBits = bits := rfl
@[simp] theorem State.setFormat_outScale (rate : BitVec 32) (bits : BitVec 5) (scale : BitVec 15) : (s.setFormat rate bits scale).outScale = scale := rfl
@[simp] theorem State.setFormat_carStep (rate : BitVec 32) (bits : BitVec 5) (scale : BitVec 15) : (s.setFormat rate bits scale).carStep = s.carStep := rfl
@[simp] theorem State.setFormat_modStep (rate : BitVec 32) (bits : BitVec 5) (scale : BitVec 15) : (s.setFormat rate bits scale).modStep = s.modStep := rfl
@[simp] theorem State.setFormat_carAcc (rate : BitVec 32) (bits : BitVec 5) (scale : BitVec 15) : (s.setFormat rate bits scale).carAcc = s.carAcc := rfl
@[simp] theorem State.setFormat_modAcc (rate : BitVec 32) (bits : BitVec 5) (scale : BitVec 15) : (s.setFormat rate bits scale).modAcc = s.modAcc := rfl
@[simp] theorem State.setFormat_envMode (rate : BitVec 32) (bits : BitVec 5) (scale : BitVec 15) : (s.setFormat rate bits scale).envMode = s.envMode := rfl
@[simp] theorem State.setFormat_envLevel (rate : BitVec 32) (bits : BitVec 5) (scale : BitVec 15) : (s.setFormat rate bits scale).envLevel = s.envLevel := rfl
@[simp] theorem State.setFormat_envStepcnt (rate : BitVec 32) (bits : BitVec 5) (scale : BitVec 15) : (s.setFormat rate bits scale).envStepcnt = s.envStepcnt := rfl
@[simp] theorem State.setFormat_lastCode (rate : BitVec 32) (bits : BitVec 5) (scale : BitVec 15) : (s.setFormat rate bits scale).lastCode = s.lastCode := rfl
@[simp] theorem State.setFormat_lastA (rate : BitVec 32) (bits : BitVec 5) (scale : BitVec 15) : (s.setFormat rate bits scale).lastA = s.lastA := rfl
@[simp] theorem State.setFormat_norm (rate : BitVec 32) (bits : BitVec 5) (scale : BitVec 15) : (s.setFormat rate bits scale).norm = s.norm := rfl
@[simp] theorem State.setFormat_dacOut (rate : BitVec 32) (bits : BitVec 5) (scale : BitVec 15) : (s.setFormat rate bits scale).dacOut = s.dacOut := rfl
@[simp] theorem State.setFormat_rspOut (rate : BitVec 32) (bits : BitVec 5) (scale : BitVec 15) : (s.setFormat rate bits scale).rspOut = s.rspOut := rfl
@[simp] theorem State.setFormat_control (rate : BitVec 32) (bits : BitVec 5) (scale : BitVec 15) : (s.setFormat rate bits scale).control = s.control := rfl
@[simp] theorem State.setFormat_ticker (rate : BitVec 32) (bits : BitVec 5) (scale : BitVec 15) : (s.setFormat rate bits scale).ticker = s.ticker := rfl
@[simp] theorem State.setFormat_arrivals (rate : BitVec 32) (bits : BitVec 5) (scale : BitVec 15) : (s.setFormat rate bits scale).arrivals = s.arrivals := rfl

@[simp] theorem State.setCarStep_ctrl (v : BitVec 32) : (s.setCarStep v).ctrl = s.ctrl := rfl
@[simp] theorem State.setCarStep_attackRate (v : BitVec 32) : (s.setCarStep v).attackRate = s.attackRate := rfl
@[simp] theorem State.setCarStep_decayRate (v : BitVec 32) : (s.setCarStep v).decayRate = s.decayRate := rfl
@[simp] theorem State.setCarStep_sustainLevel (v : BitVec 32) : (s.setCarStep v).sustainLevel = s.sustainLevel := rfl
@[simp] theorem State.setCarStep_shapeIn (v : BitVec 32) : (s.setCarStep v).shapeIn = s.shapeIn := rfl
@[simp] theorem State.setCarStep_status (v : BitVec 32) : (s.setCarStep v).status = s.status := rfl
@[simp] theorem State.setCarStep_noteState (v : BitVec 32) : (s.setCarStep v).noteState = s.noteState := rfl
@[simp] theorem State.setCarStep_activeNote (v : BitVec 32) : (s.setCarStep v).activeNote = s.activeNote := rfl
@[simp] theorem State.setCarStep_sampleRate (v : BitVec 32) : (s.setCarStep v).sampleRate = s.sampleRate := rfl
@[simp] theorem State.setCarStep_dacBits (v : BitVec 32) : (s.setCarStep v).dacBits = s.dacBits := rfl
@[simp] theorem State.setCarStep_outScale (v : BitVec 32) : (s.setCarStep v).outScale = s.outScale := rfl
@[simp] theorem State.setCarStep_carStep (v : BitVec 32) : (s.setCarStep v).carStep = v := rfl
@[simp] theorem State.setCarStep_modStep (v : BitVec 32) : (s.setCarStep v).modStep = s.modStep := rfl
@[simp] theorem State.setCarStep_carAcc (v : BitVec 32) : (s.setCarStep v).carAcc = s.carAcc := rfl
@[simp] theorem State.setCarStep_modAcc (v : BitVec 32) : (s.setCarStep v).modAcc = s.modAcc := rfl
@[simp] theorem State.setCarStep_envMode (v : BitVec 32) : (s.setCarStep v).envMode = s.envMode := rfl
@[simp] theorem State.setCarStep_envLevel (v : BitVec 32) : (s.setCarStep v).envLevel = s.envLevel := rfl
@[simp] theorem State.setCarStep_envStepcnt (v : BitVec 32) : (s.setCarStep v).envStepcnt = s.envStepcnt := rfl
@[simp] theorem State.setCarStep_lastCode (v : BitVec 32) : (s.setCarStep v).lastCode = s.lastCode := rfl
@[simp] theorem State.setCarStep_lastA (v : BitVec 32) : (s.setCarStep v).lastA = s.lastA := rfl
@[simp] theorem State.setCarStep_norm (v : BitVec 32) : (s.setCarStep v).norm = s.norm := rfl
@[simp] theorem State.setCarStep_dacOut (v : BitVec 32) : (s.setCarStep v).dacOut = s.dacOut := rfl
@[simp] theorem State.setCarStep_rspOut (v : BitVec 32) : (s.setCarStep v).rspOut = s.rspOut := rfl
@[simp] theorem State.setCarStep_control (v : BitVec 32) : (s.setCarStep v).control = s.control := rfl
@[simp] theorem State.setCarStep_ticker (v : BitVec 32) : (s.setCarStep v).ticker = s.ticker := rfl
@[simp] theorem State.setCarStep_arrivals (v : BitVec 32) : (s.setCarStep v).arrivals = s.arrivals := rfl

@[simp] theorem State.setModStep_ctrl (v : BitVec 32) : (s.setModStep v).ctrl = s.ctrl := rfl
@[simp] theorem State.setModStep_attackRate (v : BitVec 32) : (s.setModStep v).attackRate = s.attackRate := rfl
@[simp] theorem State.setModStep_decayRate (v : BitVec 32) : (s.setModStep v).decayRate = s.decayRate := rfl
@[simp] theorem State.setModStep_sustainLevel (v : BitVec 32) : (s.setModStep v).sustainLevel = s.sustainLevel := rfl
@[simp] theorem State.setModStep_shapeIn (v : BitVec 32) : (s.setModStep v).shapeIn = s.shapeIn := rfl
@[simp] theorem State.setModStep_status (v : BitVec 32) : (s.setModStep v).status = s.status := rfl
@[simp] theorem State.setModStep_noteState (v : BitVec 32) : (s.setModStep v).noteState = s.noteState := rfl
@[simp] theorem State.setModStep_activeNote (v : BitVec 32) : (s.setModStep v).activeNote = s.activeNote := rfl
@[simp] theorem State.setModStep_sampleRate (v : BitVec 32) : (s.setModStep v).sampleRate = s.sampleRate := rfl
@[simp] theorem State.setModStep_dacBits (v : BitVec 32) : (s.setModStep v).dacBits = s.dacBits := rfl
@[simp] theorem State.setModStep_outScale (v : BitVec 32) : (s.setModStep v).outScale = s.outScale := rfl
@[simp] theorem State.setModStep_carStep (v : BitVec 32) : (s.setModStep v).carStep = s.carStep := rfl
@[simp] theorem State.setModStep_modStep (v : BitVec 32) : (s.setModStep v).modStep = v := rfl
@[simp] theorem State.setModStep_carAcc (v : BitVec 32) : (s.setModStep v).carAcc = s.carAcc := rfl
@[simp] theorem State.setModStep_modAcc (v : BitVec 32) : (s.setModStep v).modAcc = s.modAcc := rfl
@[simp] theorem State.setModStep_envMode (v : BitVec 32) : (s.setModStep v).envMode = s.envMode := rfl
@[simp] theorem State.setModStep_envLevel (v : BitVec 32) : (s.setModStep v).envLevel = s.envLevel := rfl
@[simp] theorem State.setModStep_envStepcnt (v : BitVec 32) : (s.setModStep v).envStepcnt = s.envStepcnt := rfl
@[simp] theorem State.setModStep_lastCode (v : BitVec 32) : (s.setModStep v).lastCode = s.lastCode := rfl
@[simp] theorem State.setModStep_lastA (v : BitVec 32) : (s.setModStep v).lastA = s.lastA := rfl
@[simp] theorem State.setModStep_norm (v : BitVec 32) : (s.setModStep v).norm = s.norm := rfl
@[simp] theorem State.setModStep_dacOut (v : BitVec 32) : (s.setModStep v).dacOut = s.dacOut := rfl
@[simp] theorem State.setModStep_rspOut (v : BitVec 32) : (s.setModStep v).rspOut = s.rspOut := rfl
@[simp] theorem State.setModStep_control (v : BitVec 32) : (s.setModStep v).control = s.control := rfl
@[simp] theorem State.setModStep_ticker (v : BitVec 32) : (s.setModStep v).ticker = s.ticker := rfl
@[simp] theorem State.setModStep_arrivals (v : BitVec 32) : (s.setModStep v).arrivals = s.arrivals := rfl

@[simp] theorem State.setPhase_ctrl (car : BitVec 32) (mod : BitVec 32) : (s.setPhase car mod).ctrl = s.ctrl := rfl
@[simp] theorem State.setPhase_attackRate (car : BitVec 32) (mod : BitVec 32) : (s.setPhase car mod).attackRate = s.attackRate := rfl
@[simp] theorem State.setPhase_decayRate (car : BitVec 32) (mod : BitVec 32) : (s.setPhase car mod).decayRate = s.decayRate := rfl
@[simp] theorem State.setPhase_sustainLevel (car : BitVec 32) (mod : BitVec 32) : (s.setPhase car mod).sustainLevel = s.sustainLevel := rfl
@[simp] theorem State.setPhase_shapeIn (car : BitVec 32) (mod : BitVec 32) : (s.setPhase car mod).shapeIn = s.shapeIn := rfl
@[simp] theorem State.setPhase_status (car : BitVec 32) (mod : BitVec 32) : (s.setPhase car mod).status = s.status := rfl
@[simp] theorem State.setPhase_noteState (car : BitVec 32) (mod : BitVec 32) : (s.setPhase car mod).noteState = s.noteState := rfl
@[simp] theorem State.setPhase_activeNote (car : BitVec 32) (mod : BitVec 32) : (s.setPhase car mod).activeNote = s.activeNote := rfl
@[simp] theorem State.setPhase_sampleRate (car : BitVec 32) (mod : BitVec 32) : (s.setPhase car mod).sampleRate = s.sampleRate := rfl
@[simp] theorem State.setPhase_dacBits (car : BitVec 32) (mod : BitVec 32) : (s.setPhase car mod).dacBits = s.dacBits := rfl
@[simp] theorem State.setPhase_outScale (car : BitVec 32) (mod : BitVec 32) : (s.setPhase car mod).outScale = s.outScale := rfl
@[simp] theorem State.setPhase_carStep (car : BitVec 32) (mod : BitVec 32) : (s.setPhase car mod).carStep = s.carStep := rfl
@[simp] theorem State.setPhase_modStep (car : BitVec 32) (mod : BitVec 32) : (s.setPhase car mod).modStep = s.modStep := rfl
@[simp] theorem State.setPhase_carAcc (car : BitVec 32) (mod : BitVec 32) : (s.setPhase car mod).carAcc = car := rfl
@[simp] theorem State.setPhase_modAcc (car : BitVec 32) (mod : BitVec 32) : (s.setPhase car mod).modAcc = mod := rfl
@[simp] theorem State.setPhase_envMode (car : BitVec 32) (mod : BitVec 32) : (s.setPhase car mod).envMode = s.envMode := rfl
@[simp] theorem State.setPhase_envLevel (car : BitVec 32) (mod : BitVec 32) : (s.setPhase car mod).envLevel = s.envLevel := rfl
@[simp] theorem State.setPhase_envStepcnt (car : BitVec 32) (mod : BitVec 32) : (s.setPhase car mod).envStepcnt = s.envStepcnt := rfl
@[simp] theorem State.setPhase_lastCode (car : BitVec 32) (mod : BitVec 32) : (s.setPhase car mod).lastCode = s.lastCode := rfl
@[simp] theorem State.setPhase_lastA (car : BitVec 32) (mod : BitVec 32) : (s.setPhase car mod).lastA = s.lastA := rfl
@[simp] theorem State.setPhase_norm (car : BitVec 32) (mod : BitVec 32) : (s.setPhase car mod).norm = s.norm := rfl
@[simp] theorem State.setPhase_dacOut (car : BitVec 32) (mod : BitVec 32) : (s.setPhase car mod).dacOut = s.dacOut := rfl
@[simp] theorem State.setPhase_rspOut (car : BitVec 32) (mod : BitVec 32) : (s.setPhase car mod).rspOut = s.rspOut := rfl
@[simp] theorem State.setPhase_control (car : BitVec 32) (mod : BitVec 32) : (s.setPhase car mod).control = s.control := rfl
@[simp] theorem State.setPhase_ticker (car : BitVec 32) (mod : BitVec 32) : (s.setPhase car mod).ticker = s.ticker := rfl
@[simp] theorem State.setPhase_arrivals (car : BitVec 32) (mod : BitVec 32) : (s.setPhase car mod).arrivals = s.arrivals := rfl

@[simp] theorem State.setEnv_ctrl (mode : EnvMode) (level : BitVec 17) (cnt : BitVec 32) : (s.setEnv mode level cnt).ctrl = s.ctrl := rfl
@[simp] theorem State.setEnv_attackRate (mode : EnvMode) (level : BitVec 17) (cnt : BitVec 32) : (s.setEnv mode level cnt).attackRate = s.attackRate := rfl
@[simp] theorem State.setEnv_decayRate (mode : EnvMode) (level : BitVec 17) (cnt : BitVec 32) : (s.setEnv mode level cnt).decayRate = s.decayRate := rfl
@[simp] theorem State.setEnv_sustainLevel (mode : EnvMode) (level : BitVec 17) (cnt : BitVec 32) : (s.setEnv mode level cnt).sustainLevel = s.sustainLevel := rfl
@[simp] theorem State.setEnv_shapeIn (mode : EnvMode) (level : BitVec 17) (cnt : BitVec 32) : (s.setEnv mode level cnt).shapeIn = s.shapeIn := rfl
@[simp] theorem State.setEnv_status (mode : EnvMode) (level : BitVec 17) (cnt : BitVec 32) : (s.setEnv mode level cnt).status = s.status := rfl
@[simp] theorem State.setEnv_noteState (mode : EnvMode) (level : BitVec 17) (cnt : BitVec 32) : (s.setEnv mode level cnt).noteState = s.noteState := rfl
@[simp] theorem State.setEnv_activeNote (mode : EnvMode) (level : BitVec 17) (cnt : BitVec 32) : (s.setEnv mode level cnt).activeNote = s.activeNote := rfl
@[simp] theorem State.setEnv_sampleRate (mode : EnvMode) (level : BitVec 17) (cnt : BitVec 32) : (s.setEnv mode level cnt).sampleRate = s.sampleRate := rfl
@[simp] theorem State.setEnv_dacBits (mode : EnvMode) (level : BitVec 17) (cnt : BitVec 32) : (s.setEnv mode level cnt).dacBits = s.dacBits := rfl
@[simp] theorem State.setEnv_outScale (mode : EnvMode) (level : BitVec 17) (cnt : BitVec 32) : (s.setEnv mode level cnt).outScale = s.outScale := rfl
@[simp] theorem State.setEnv_carStep (mode : EnvMode) (level : BitVec 17) (cnt : BitVec 32) : (s.setEnv mode level cnt).carStep = s.carStep := rfl
@[simp] theorem State.setEnv_modStep (mode : EnvMode) (level : BitVec 17) (cnt : BitVec 32) : (s.setEnv mode level cnt).modStep = s.modStep := rfl
@[simp] theorem State.setEnv_carAcc (mode : EnvMode) (level : BitVec 17) (cnt : BitVec 32) : (s.setEnv mode level cnt).carAcc = s.carAcc := rfl
@[simp] theorem State.setEnv_modAcc (mode : EnvMode) (level : BitVec 17) (cnt : BitVec 32) : (s.setEnv mode level cnt).modAcc = s.modAcc := rfl
@[simp] theorem State.setEnv_envMode (mode : EnvMode) (level : BitVec 17) (cnt : BitVec 32) : (s.setEnv mode level cnt).envMode = mode := rfl
@[simp] theorem State.setEnv_envLevel (mode : EnvMode) (level : BitVec 17) (cnt : BitVec 32) : (s.setEnv mode level cnt).envLevel = level := rfl
@[simp] theorem State.setEnv_envStepcnt (mode : EnvMode) (level : BitVec 17) (cnt : BitVec 32) : (s.setEnv mode level cnt).envStepcnt = cnt := rfl
@[simp] theorem State.setEnv_lastCode (mode : EnvMode) (level : BitVec 17) (cnt : BitVec 32) : (s.setEnv mode level cnt).lastCode = s.lastCode := rfl
@[simp] theorem State.setEnv_lastA (mode : EnvMode) (level : BitVec 17) (cnt : BitVec 32) : (s.setEnv mode level cnt).lastA = s.lastA := rfl
@[simp] theorem State.setEnv_norm (mode : EnvMode) (level : BitVec 17) (cnt : BitVec 32) : (s.setEnv mode level cnt).norm = s.norm := rfl
@[simp] theorem State.setEnv_dacOut (mode : EnvMode) (level : BitVec 17) (cnt : BitVec 32) : (s.setEnv mode level cnt).dacOut = s.dacOut := rfl
@[simp] theorem State.setEnv_rspOut (mode : EnvMode) (level : BitVec 17) (cnt : BitVec 32) : (s.setEnv mode level cnt).rspOut = s.rspOut := rfl
@[simp] theorem State.setEnv_control (mode : EnvMode) (level : BitVec 17) (cnt : BitVec 32) : (s.setEnv mode level cnt).control = s.control := rfl
@[simp] theorem State.setEnv_ticker (mode : EnvMode) (level : BitVec 17) (cnt : BitVec 32) : (s.setEnv mode level cnt).ticker = s.ticker := rfl
@[simp] theorem State.setEnv_arrivals (mode : EnvMode) (level : BitVec 17) (cnt : BitVec 32) : (s.setEnv mode level cnt).arrivals = s.arrivals := rfl

@[simp] theorem State.setLastCode_ctrl (v : BitVec 16) : (s.setLastCode v).ctrl = s.ctrl := rfl
@[simp] theorem State.setLastCode_attackRate (v : BitVec 16) : (s.setLastCode v).attackRate = s.attackRate := rfl
@[simp] theorem State.setLastCode_decayRate (v : BitVec 16) : (s.setLastCode v).decayRate = s.decayRate := rfl
@[simp] theorem State.setLastCode_sustainLevel (v : BitVec 16) : (s.setLastCode v).sustainLevel = s.sustainLevel := rfl
@[simp] theorem State.setLastCode_shapeIn (v : BitVec 16) : (s.setLastCode v).shapeIn = s.shapeIn := rfl
@[simp] theorem State.setLastCode_status (v : BitVec 16) : (s.setLastCode v).status = s.status := rfl
@[simp] theorem State.setLastCode_noteState (v : BitVec 16) : (s.setLastCode v).noteState = s.noteState := rfl
@[simp] theorem State.setLastCode_activeNote (v : BitVec 16) : (s.setLastCode v).activeNote = s.activeNote := rfl
@[simp] theorem State.setLastCode_sampleRate (v : BitVec 16) : (s.setLastCode v).sampleRate = s.sampleRate := rfl
@[simp] theorem State.setLastCode_dacBits (v : BitVec 16) : (s.setLastCode v).dacBits = s.dacBits := rfl
@[simp] theorem State.setLastCode_outScale (v : BitVec 16) : (s.setLastCode v).outScale = s.outScale := rfl
@[simp] theorem State.setLastCode_carStep (v : BitVec 16) : (s.setLastCode v).carStep = s.carStep := rfl
@[simp] theorem State.setLastCode_modStep (v : BitVec 16) : (s.setLastCode v).modStep = s.modStep := rfl
@[simp] theorem State.setLastCode_carAcc (v : BitVec 16) : (s.setLastCode v).carAcc = s.carAcc := rfl
@[simp] theorem State.setLastCode_modAcc (v : BitVec 16) : (s.setLastCode v).modAcc = s.modAcc := rfl
@[simp] theorem State.setLastCode_envMode (v : BitVec 16) : (s.setLastCode v).envMode = s.envMode := rfl
@[simp] theorem State.setLastCode_envLevel (v : BitVec 16) : (s.setLastCode v).envLevel = s.envLevel := rfl
@[simp] theorem State.setLastCode_envStepcnt (v : BitVec 16) : (s.setLastCode v).envStepcnt = s.envStepcnt := rfl
@[simp] theorem State.setLastCode_lastCode (v : BitVec 16) : (s.setLastCode v).lastCode = v := rfl
@[simp] theorem State.setLastCode_lastA (v : BitVec 16) : (s.setLastCode v).lastA = s.lastA := rfl
@[simp] theorem State.setLastCode_norm (v : BitVec 16) : (s.setLastCode v).norm = s.norm := rfl
@[simp] theorem State.setLastCode_dacOut (v : BitVec 16) : (s.setLastCode v).dacOut = s.dacOut := rfl
@[simp] theorem State.setLastCode_rspOut (v : BitVec 16) : (s.setLastCode v).rspOut = s.rspOut := rfl
@[simp] theorem State.setLastCode_control (v : BitVec 16) : (s.setLastCode v).control = s.control := rfl
@[simp] theorem State.setLastCode_ticker (v : BitVec 16) : (s.setLastCode v).ticker = s.ticker := rfl
@[simp] theorem State.setLastCode_arrivals (v : BitVec 16) : (s.setLastCode v).arrivals = s.arrivals := rfl

@[simp] theorem State.setLastA_ctrl (v : BitVec 16) : (s.setLastA v).ctrl = s.ctrl := rfl
@[simp] theorem State.setLastA_attackRate (v : BitVec 16) : (s.setLastA v).attackRate = s.attackRate := rfl
@[simp] theorem State.setLastA_decayRate (v : BitVec 16) : (s.setLastA v).decayRate = s.decayRate := rfl
@[simp] theorem State.setLastA_sustainLevel (v : BitVec 16) : (s.setLastA v).sustainLevel = s.sustainLevel := rfl
@[simp] theorem State.setLastA_shapeIn (v : BitVec 16) : (s.setLastA v).shapeIn = s.shapeIn := rfl
@[simp] theorem State.setLastA_status (v : BitVec 16) : (s.setLastA v).status = s.status := rfl
@[simp] theorem State.setLastA_noteState (v : BitVec 16) : (s.setLastA v).noteState = s.noteState := rfl
@[simp] theorem State.setLastA_activeNote (v : BitVec 16) : (s.setLastA v).activeNote = s.activeNote := rfl
@[simp] theorem State.setLastA_sampleRate (v : BitVec 16) : (s.setLastA v).sampleRate = s.sampleRate := rfl
@[simp] theorem State.setLastA_dacBits (v : BitVec 16) : (s.setLastA v).dacBits = s.dacBits := rfl
@[simp] theorem State.setLastA_outScale (v : BitVec 16) : (s.setLastA v).outScale = s.outScale := rfl
@[simp] theorem State.setLastA_carStep (v : BitVec 16) : (s.setLastA v).carStep = s.carStep := rfl
@[simp] theorem State.setLastA_modStep (v : BitVec 16) : (s.setLastA v).modStep = s.modStep := rfl
@[simp] theorem State.setLastA_carAcc (v : BitVec 16) : (s.setLastA v).carAcc = s.carAcc := rfl
@[simp] theorem State.setLastA_modAcc (v : BitVec 16) : (s.setLastA v).modAcc = s.modAcc := rfl
@[simp] theorem State.setLastA_envMode (v : BitVec 16) : (s.setLastA v).envMode = s.envMode := rfl
@[simp] theorem State.setLastA_envLevel (v : BitVec 16) : (s.setLastA v).envLevel = s.envLevel := rfl
@[simp] theorem State.setLastA_envStepcnt (v : BitVec 16) : (s.setLastA v).envStepcnt = s.envStepcnt := rfl
@[simp] theorem State.setLastA_lastCode (v : BitVec 16) : (s.setLastA v).lastCode = s.lastCode := rfl
@[simp] theorem State.setLastA_lastA (v : BitVec 16) : (s.setLastA v).lastA = v := rfl
@[simp] theorem State.setLastA_norm (v : BitVec 16) : (s.setLastA v).norm = s.norm := rfl
@[simp] theorem State.setLastA_dacOut (v : BitVec 16) : (s.setLastA v).dacOut = s.dacOut := rfl
@[simp] theorem State.setLastA_rspOut (v : BitVec 16) : (s.setLastA v).rspOut = s.rspOut := rfl
@[simp] theorem State.setLastA_control (v : BitVec 16) : (s.setLastA v).control = s.control := rfl
@[simp] theorem State.setLastA_ticker (v : BitVec 16) : (s.setLastA v).ticker = s.ticker := rfl
@[simp] theorem State.setLastA_arrivals (v : BitVec 16) : (s.setLastA v).arrivals = s.arrivals := rfl

@[simp] theorem State.setNorm_ctrl (m : Memory) : (s.setNorm m).ctrl = s.ctrl := rfl
@[simp] theorem State.setNorm_attackRate (m : Memory) : (s.setNorm m).attackRate = s.attackRate := rfl
@[simp] theorem State.setNorm_decayRate (m : Memory) : (s.setNorm m).decayRate = s.decayRate := rfl
@[simp] theorem State.setNorm_sustainLevel (m : Memory) : (s.setNorm m).sustainLevel = s.sustainLevel := rfl
@[simp] theorem State.setNorm_shapeIn (m : Memory) : (s.setNorm m).shapeIn = s.shapeIn := rfl
@[simp] theorem State.setNorm_status (m : Memory) : (s.setNorm m).status = s.status := rfl
@[simp] theorem State.setNorm_noteState (m : Memory) : (s.setNorm m).noteState = s.noteState := rfl
@[simp] theorem State.setNorm_activeNote (m : Memory) : (s.setNorm m).activeNote = s.activeNote := rfl
@[simp] theorem State.setNorm_sampleRate (m : Memory) : (s.setNorm m).sampleRate = s.sampleRate := rfl
@[simp] theorem State.setNorm_dacBits (m : Memory) : (s.setNorm m).dacBits = s.dacBits := rfl
@[simp] theorem State.setNorm_outScale (m : Memory) : (s.setNorm m).outScale = s.outScale := rfl
@[simp] theorem State.setNorm_carStep (m : Memory) : (s.setNorm m).carStep = s.carStep := rfl
@[simp] theorem State.setNorm_modStep (m : Memory) : (s.setNorm m).modStep = s.modStep := rfl
@[simp] theorem State.setNorm_carAcc (m : Memory) : (s.setNorm m).carAcc = s.carAcc := rfl
@[simp] theorem State.setNorm_modAcc (m : Memory) : (s.setNorm m).modAcc = s.modAcc := rfl
@[simp] theorem State.setNorm_envMode (m : Memory) : (s.setNorm m).envMode = s.envMode := rfl
@[simp] theorem State.setNorm_envLevel (m : Memory) : (s.setNorm m).envLevel = s.envLevel := rfl
@[simp] theorem State.setNorm_envStepcnt (m : Memory) : (s.setNorm m).envStepcnt = s.envStepcnt := rfl
@[simp] theorem State.setNorm_lastCode (m : Memory) : (s.setNorm m).lastCode = s.lastCode := rfl
@[simp] theorem State.setNorm_lastA (m : Memory) : (s.setNorm m).lastA = s.lastA := rfl
@[simp] theorem State.setNorm_norm (m : Memory) : (s.setNorm m).norm = m := rfl
@[simp] theorem State.setNorm_dacOut (m : Memory) : (s.setNorm m).dacOut = s.dacOut := rfl
@[simp] theorem State.setNorm_rspOut (m : Memory) : (s.setNorm m).rspOut = s.rspOut := rfl
@[simp] theorem State.setNorm_control (m : Memory) : (s.setNorm m).control = s.control := rfl
@[simp] theorem State.setNorm_ticker (m : Memory) : (s.setNorm m).ticker = s.ticker := rfl
@[simp] theorem State.setNorm_arrivals (m : Memory) : (s.setNorm m).arrivals = s.arrivals := rfl

@[simp] theorem State.emitDac_ctrl (code : BitVec 16) : (s.emitDac code).ctrl = s.ctrl := rfl
@[simp] theorem State.emitDac_attackRate (code : BitVec 16) : (s.emitDac code).attackRate = s.attackRate := rfl
@[simp] theorem State.emitDac_decayRate (code : BitVec 16) : (s.emitDac code).decayRate = s.decayRate := rfl
@[simp] theorem State.emitDac_sustainLevel (code : BitVec 16) : (s.emitDac code).sustainLevel = s.sustainLevel := rfl
@[simp] theorem State.emitDac_shapeIn (code : BitVec 16) : (s.emitDac code).shapeIn = s.shapeIn := rfl
@[simp] theorem State.emitDac_status (code : BitVec 16) : (s.emitDac code).status = s.status := rfl
@[simp] theorem State.emitDac_noteState (code : BitVec 16) : (s.emitDac code).noteState = s.noteState := rfl
@[simp] theorem State.emitDac_activeNote (code : BitVec 16) : (s.emitDac code).activeNote = s.activeNote := rfl
@[simp] theorem State.emitDac_sampleRate (code : BitVec 16) : (s.emitDac code).sampleRate = s.sampleRate := rfl
@[simp] theorem State.emitDac_dacBits (code : BitVec 16) : (s.emitDac code).dacBits = s.dacBits := rfl
@[simp] theorem State.emitDac_outScale (code : BitVec 16) : (s.emitDac code).outScale = s.outScale := rfl
@[simp] theorem State.emitDac_carStep (code : BitVec 16) : (s.emitDac code).carStep = s.carStep := rfl
@[simp] theorem State.emitDac_modStep (code : BitVec 16) : (s.emitDac code).modStep = s.modStep := rfl
@[simp] theorem State.emitDac_carAcc (code : BitVec 16) : (s.emitDac code).carAcc = s.carAcc := rfl
@[simp] theorem State.emitDac_modAcc (code : BitVec 16) : (s.emitDac code).modAcc = s.modAcc := rfl
@[simp] theorem State.emitDac_envMode (code : BitVec 16) : (s.emitDac code).envMode = s.envMode := rfl
@[simp] theorem State.emitDac_envLevel (code : BitVec 16) : (s.emitDac code).envLevel = s.envLevel := rfl
@[simp] theorem State.emitDac_envStepcnt (code : BitVec 16) : (s.emitDac code).envStepcnt = s.envStepcnt := rfl
@[simp] theorem State.emitDac_lastCode (code : BitVec 16) : (s.emitDac code).lastCode = s.lastCode := rfl
@[simp] theorem State.emitDac_lastA (code : BitVec 16) : (s.emitDac code).lastA = s.lastA := rfl
@[simp] theorem State.emitDac_norm (code : BitVec 16) : (s.emitDac code).norm = s.norm := rfl
@[simp] theorem State.emitDac_dacOut (code : BitVec 16) : (s.emitDac code).dacOut = s.dacOut ++ [code] := rfl
@[simp] theorem State.emitDac_rspOut (code : BitVec 16) : (s.emitDac code).rspOut = s.rspOut := rfl
@[simp] theorem State.emitDac_control (code : BitVec 16) : (s.emitDac code).control = s.control := rfl
@[simp] theorem State.emitDac_ticker (code : BitVec 16) : (s.emitDac code).ticker = s.ticker := rfl
@[simp] theorem State.emitDac_arrivals (code : BitVec 16) : (s.emitDac code).arrivals = s.arrivals := rfl

@[simp] theorem State.emitRsp_ctrl (v : BitVec 32) : (s.emitRsp v).ctrl = s.ctrl := rfl
@[simp] theorem State.emitRsp_attackRate (v : BitVec 32) : (s.emitRsp v).attackRate = s.attackRate := rfl
@[simp] theorem State.emitRsp_decayRate (v : BitVec 32) : (s.emitRsp v).decayRate = s.decayRate := rfl
@[simp] theorem State.emitRsp_sustainLevel (v : BitVec 32) : (s.emitRsp v).sustainLevel = s.sustainLevel := rfl
@[simp] theorem State.emitRsp_shapeIn (v : BitVec 32) : (s.emitRsp v).shapeIn = s.shapeIn := rfl
@[simp] theorem State.emitRsp_status (v : BitVec 32) : (s.emitRsp v).status = s.status := rfl
@[simp] theorem State.emitRsp_noteState (v : BitVec 32) : (s.emitRsp v).noteState = s.noteState := rfl
@[simp] theorem State.emitRsp_activeNote (v : BitVec 32) : (s.emitRsp v).activeNote = s.activeNote := rfl
@[simp] theorem State.emitRsp_sampleRate (v : BitVec 32) : (s.emitRsp v).sampleRate = s.sampleRate := rfl
@[simp] theorem State.emitRsp_dacBits (v : BitVec 32) : (s.emitRsp v).dacBits = s.dacBits := rfl
@[simp] theorem State.emitRsp_outScale (v : BitVec 32) : (s.emitRsp v).outScale = s.outScale := rfl
@[simp] theorem State.emitRsp_carStep (v : BitVec 32) : (s.emitRsp v).carStep = s.carStep := rfl
@[simp] theorem State.emitRsp_modStep (v : BitVec 32) : (s.emitRsp v).modStep = s.modStep := rfl
@[simp] theorem State.emitRsp_carAcc (v : BitVec 32) : (s.emitRsp v).carAcc = s.carAcc := rfl
@[simp] theorem State.emitRsp_modAcc (v : BitVec 32) : (s.emitRsp v).modAcc = s.modAcc := rfl
@[simp] theorem State.emitRsp_envMode (v : BitVec 32) : (s.emitRsp v).envMode = s.envMode := rfl
@[simp] theorem State.emitRsp_envLevel (v : BitVec 32) : (s.emitRsp v).envLevel = s.envLevel := rfl
@[simp] theorem State.emitRsp_envStepcnt (v : BitVec 32) : (s.emitRsp v).envStepcnt = s.envStepcnt := rfl
@[simp] theorem State.emitRsp_lastCode (v : BitVec 32) : (s.emitRsp v).lastCode = s.lastCode := rfl
@[simp] theorem State.emitRsp_lastA (v : BitVec 32) : (s.emitRsp v).lastA = s.lastA := rfl
@[simp] theorem State.emitRsp_norm (v : BitVec 32) : (s.emitRsp v).norm = s.norm := rfl
@[simp] theorem State.emitRsp_dacOut (v : BitVec 32) : (s.emitRsp v).dacOut = s.dacOut := rfl
@[simp] theorem State.emitRsp_rspOut (v : BitVec 32) : (s.emitRsp v).rspOut = s.rspOut ++ [v] := rfl
@[simp] theorem State.emitRsp_control (v : BitVec 32) : (s.emitRsp v).control = s.control := rfl
@[simp] theorem State.emitRsp_ticker (v : BitVec 32) : (s.emitRsp v).ticker = s.ticker := rfl
@[simp] theorem State.emitRsp_arrivals (v : BitVec 32) : (s.emitRsp v).arrivals = s.arrivals := rfl

@[simp] theorem State.setInput_ctrl (c : List Word) (t : List Word) (es : List PortEvent) : (s.setInput c t es).ctrl = s.ctrl := rfl
@[simp] theorem State.setInput_attackRate (c : List Word) (t : List Word) (es : List PortEvent) : (s.setInput c t es).attackRate = s.attackRate := rfl
@[simp] theorem State.setInput_decayRate (c : List Word) (t : List Word) (es : List PortEvent) : (s.setInput c t es).decayRate = s.decayRate := rfl
@[simp] theorem State.setInput_sustainLevel (c : List Word) (t : List Word) (es : List PortEvent) : (s.setInput c t es).sustainLevel = s.sustainLevel := rfl
@[simp] theorem State.setInput_shapeIn (c : List Word) (t : List Word) (es : List PortEvent) : (s.setInput c t es).shapeIn = s.shapeIn := rfl
@[simp] theorem State.setInput_status (c : List Word) (t : List Word) (es : List PortEvent) : (s.setInput c t es).status = s.status := rfl
@[simp] theorem State.setInput_noteState (c : List Word) (t : List Word) (es : List PortEvent) : (s.setInput c t es).noteState = s.noteState := rfl
@[simp] theorem State.setInput_activeNote (c : List Word) (t : List Word) (es : List PortEvent) : (s.setInput c t es).activeNote = s.activeNote := rfl
@[simp] theorem State.setInput_sampleRate (c : List Word) (t : List Word) (es : List PortEvent) : (s.setInput c t es).sampleRate = s.sampleRate := rfl
@[simp] theorem State.setInput_dacBits (c : List Word) (t : List Word) (es : List PortEvent) : (s.setInput c t es).dacBits = s.dacBits := rfl
@[simp] theorem State.setInput_outScale (c : List Word) (t : List Word) (es : List PortEvent) : (s.setInput c t es).outScale = s.outScale := rfl
@[simp] theorem State.setInput_carStep (c : List Word) (t : List Word) (es : List PortEvent) : (s.setInput c t es).carStep = s.carStep := rfl
@[simp] theorem State.setInput_modStep (c : List Word) (t : List Word) (es : List PortEvent) : (s.setInput c t es).modStep = s.modStep := rfl
@[simp] theorem State.setInput_carAcc (c : List Word) (t : List Word) (es : List PortEvent) : (s.setInput c t es).carAcc = s.carAcc := rfl
@[simp] theorem State.setInput_modAcc (c : List Word) (t : List Word) (es : List PortEvent) : (s.setInput c t es).modAcc = s.modAcc := rfl
@[simp] theorem State.setInput_envMode (c : List Word) (t : List Word) (es : List PortEvent) : (s.setInput c t es).envMode = s.envMode := rfl
@[simp] theorem State.setInput_envLevel (c : List Word) (t : List Word) (es : List PortEvent) : (s.setInput c t es).envLevel = s.envLevel := rfl
@[simp] theorem State.setInput_envStepcnt (c : List Word) (t : List Word) (es : List PortEvent) : (s.setInput c t es).envStepcnt = s.envStepcnt := rfl
@[simp] theorem State.setInput_lastCode (c : List Word) (t : List Word) (es : List PortEvent) : (s.setInput c t es).lastCode = s.lastCode := rfl
@[simp] theorem State.setInput_lastA (c : List Word) (t : List Word) (es : List PortEvent) : (s.setInput c t es).lastA = s.lastA := rfl
@[simp] theorem State.setInput_norm (c : List Word) (t : List Word) (es : List PortEvent) : (s.setInput c t es).norm = s.norm := rfl
@[simp] theorem State.setInput_dacOut (c : List Word) (t : List Word) (es : List PortEvent) : (s.setInput c t es).dacOut = s.dacOut := rfl
@[simp] theorem State.setInput_rspOut (c : List Word) (t : List Word) (es : List PortEvent) : (s.setInput c t es).rspOut = s.rspOut := rfl
@[simp] theorem State.setInput_control (c : List Word) (t : List Word) (es : List PortEvent) : (s.setInput c t es).control = c := rfl
@[simp] theorem State.setInput_ticker (c : List Word) (t : List Word) (es : List PortEvent) : (s.setInput c t es).ticker = t := rfl
@[simp] theorem State.setInput_arrivals (c : List Word) (t : List Word) (es : List PortEvent) : (s.setInput c t es).arrivals = es := rfl

end Sys2Proof.Machine
end

