-- ==== Sys2Proof/Laws/Ops.lean ====
section
/-! SUPPORT. What each shared operation can do, said once: one lemma per operation and field that it
leaves alone, and the equation of what it changes. -/

namespace Sys2Proof.Machine

variable (s : State)

/-- IllegalCommand writes STATUS (R301, 60_exceptions). -/
@[simp] theorem raiseIllegal_status (op : BitVec 8) (c : Cause) :
    (raiseIllegal op c s).status = statusOf c.code := by
  unfold raiseIllegal; split <;> rfl

/-- IllegalCommand answers 0 to a read opcode, and nothing to another (R276, R301). -/
theorem raiseIllegal_rspOut (op : BitVec 8) (c : Cause) :
    (raiseIllegal op c s).rspOut = if isReadOpcode op then s.rspOut ++ [0#32] else s.rspOut := by
  unfold raiseIllegal; split <;> rfl

@[simp] theorem raiseIllegal_ctrl (op : BitVec 8) (c : Cause) :
    (raiseIllegal op c s).ctrl = s.ctrl := by
  unfold raiseIllegal; split <;> rfl
@[simp] theorem raiseIllegal_attackRate (op : BitVec 8) (c : Cause) :
    (raiseIllegal op c s).attackRate = s.attackRate := by
  unfold raiseIllegal; split <;> rfl
@[simp] theorem raiseIllegal_decayRate (op : BitVec 8) (c : Cause) :
    (raiseIllegal op c s).decayRate = s.decayRate := by
  unfold raiseIllegal; split <;> rfl
@[simp] theorem raiseIllegal_sustainLevel (op : BitVec 8) (c : Cause) :
    (raiseIllegal op c s).sustainLevel = s.sustainLevel := by
  unfold raiseIllegal; split <;> rfl
@[simp] theorem raiseIllegal_shapeIn (op : BitVec 8) (c : Cause) :
    (raiseIllegal op c s).shapeIn = s.shapeIn := by
  unfold raiseIllegal; split <;> rfl
@[simp] theorem raiseIllegal_noteState (op : BitVec 8) (c : Cause) :
    (raiseIllegal op c s).noteState = s.noteState := by
  unfold raiseIllegal; split <;> rfl
@[simp] theorem raiseIllegal_activeNote (op : BitVec 8) (c : Cause) :
    (raiseIllegal op c s).activeNote = s.activeNote := by
  unfold raiseIllegal; split <;> rfl
@[simp] theorem raiseIllegal_sampleRate (op : BitVec 8) (c : Cause) :
    (raiseIllegal op c s).sampleRate = s.sampleRate := by
  unfold raiseIllegal; split <;> rfl
@[simp] theorem raiseIllegal_dacBits (op : BitVec 8) (c : Cause) :
    (raiseIllegal op c s).dacBits = s.dacBits := by
  unfold raiseIllegal; split <;> rfl
@[simp] theorem raiseIllegal_outScale (op : BitVec 8) (c : Cause) :
    (raiseIllegal op c s).outScale = s.outScale := by
  unfold raiseIllegal; split <;> rfl
@[simp] theorem raiseIllegal_carStep (op : BitVec 8) (c : Cause) :
    (raiseIllegal op c s).carStep = s.carStep := by
  unfold raiseIllegal; split <;> rfl
@[simp] theorem raiseIllegal_modStep (op : BitVec 8) (c : Cause) :
    (raiseIllegal op c s).modStep = s.modStep := by
  unfold raiseIllegal; split <;> rfl
@[simp] theorem raiseIllegal_carAcc (op : BitVec 8) (c : Cause) :
    (raiseIllegal op c s).carAcc = s.carAcc := by
  unfold raiseIllegal; split <;> rfl
@[simp] theorem raiseIllegal_modAcc (op : BitVec 8) (c : Cause) :
    (raiseIllegal op c s).modAcc = s.modAcc := by
  unfold raiseIllegal; split <;> rfl
@[simp] theorem raiseIllegal_envMode (op : BitVec 8) (c : Cause) :
    (raiseIllegal op c s).envMode = s.envMode := by
  unfold raiseIllegal; split <;> rfl
@[simp] theorem raiseIllegal_envLevel (op : BitVec 8) (c : Cause) :
    (raiseIllegal op c s).envLevel = s.envLevel := by
  unfold raiseIllegal; split <;> rfl
@[simp] theorem raiseIllegal_envStepcnt (op : BitVec 8) (c : Cause) :
    (raiseIllegal op c s).envStepcnt = s.envStepcnt := by
  unfold raiseIllegal; split <;> rfl
@[simp] theorem raiseIllegal_lastCode (op : BitVec 8) (c : Cause) :
    (raiseIllegal op c s).lastCode = s.lastCode := by
  unfold raiseIllegal; split <;> rfl
@[simp] theorem raiseIllegal_lastA (op : BitVec 8) (c : Cause) :
    (raiseIllegal op c s).lastA = s.lastA := by
  unfold raiseIllegal; split <;> rfl
@[simp] theorem raiseIllegal_norm (op : BitVec 8) (c : Cause) :
    (raiseIllegal op c s).norm = s.norm := by
  unfold raiseIllegal; split <;> rfl
@[simp] theorem raiseIllegal_dacOut (op : BitVec 8) (c : Cause) :
    (raiseIllegal op c s).dacOut = s.dacOut := by
  unfold raiseIllegal; split <;> rfl
@[simp] theorem raiseIllegal_control (op : BitVec 8) (c : Cause) :
    (raiseIllegal op c s).control = s.control := by
  unfold raiseIllegal; split <;> rfl
@[simp] theorem raiseIllegal_ticker (op : BitVec 8) (c : Cause) :
    (raiseIllegal op c s).ticker = s.ticker := by
  unfold raiseIllegal; split <;> rfl
@[simp] theorem raiseIllegal_arrivals (op : BitVec 8) (c : Cause) :
    (raiseIllegal op c s).arrivals = s.arrivals := by
  unfold raiseIllegal; split <;> rfl

/-- IllegalCommand changes no register but STATUS (R301). -/
theorem readReg_raiseIllegal (op : BitVec 8) (c : Cause) {r : Reg} (h : r ≠ .status) :
    readReg r (raiseIllegal op c s) = readReg r s := by
  cases r <;> simp_all [readReg]

/-- No port event changes a register. -/
@[simp] theorem readReg_emitRsp (r : Reg) (v : BitVec 32) :
    readReg r (s.emitRsp v) = readReg r s := by cases r <;> rfl
@[simp] theorem readReg_emitDac (r : Reg) (v : BitVec 16) :
    readReg r (s.emitDac v) = readReg r s := by cases r <;> rfl
@[simp] theorem readReg_setInput (r : Reg) (c t : List Word) (es : List PortEvent) :
    readReg r (s.setInput c t es) = readReg r s := by cases r <;> rfl
@[simp] theorem readReg_setNorm (r : Reg) (m : Memory) :
    readReg r (s.setNorm m) = readReg r s := by cases r <;> rfl

/-- The register map is one to one (R33, 10_state). -/
theorem Reg.ofIndex_index (r : Reg) : Reg.ofIndex r.index = some r := by cases r <;> rfl

/-- An envelope step writes the envelope's triple and nothing else (R210, 43_envelope). -/
theorem envStep_eq_setEnv (p : Config.EnvParams) :
    ∃ m l n, envStep p s = s.setEnv m l n := by
  unfold envStep
  cases hm : s.envMode with
  | attack => simp only [attackStep]; split <;> exact ⟨_, _, _, rfl⟩
  | decay => simp only [decayStep]; split <;> exact ⟨_, _, _, rfl⟩
  | sustain => exact ⟨_, _, _, rfl⟩
  | release => exact ⟨s.envMode, s.envLevel, s.envStepcnt, rfl⟩

@[simp] theorem envStep_ctrl (p : Config.EnvParams) : (envStep p s).ctrl = s.ctrl := by
  obtain ⟨_, _, _, h⟩ := envStep_eq_setEnv s p; simp [h]
@[simp] theorem envStep_attackRate (p : Config.EnvParams) : (envStep p s).attackRate = s.attackRate := by
  obtain ⟨_, _, _, h⟩ := envStep_eq_setEnv s p; simp [h]
@[simp] theorem envStep_decayRate (p : Config.EnvParams) : (envStep p s).decayRate = s.decayRate := by
  obtain ⟨_, _, _, h⟩ := envStep_eq_setEnv s p; simp [h]
@[simp] theorem envStep_sustainLevel (p : Config.EnvParams) : (envStep p s).sustainLevel = s.sustainLevel := by
  obtain ⟨_, _, _, h⟩ := envStep_eq_setEnv s p; simp [h]
@[simp] theorem envStep_shapeIn (p : Config.EnvParams) : (envStep p s).shapeIn = s.shapeIn := by
  obtain ⟨_, _, _, h⟩ := envStep_eq_setEnv s p; simp [h]
@[simp] theorem envStep_status (p : Config.EnvParams) : (envStep p s).status = s.status := by
  obtain ⟨_, _, _, h⟩ := envStep_eq_setEnv s p; simp [h]
@[simp] theorem envStep_noteState (p : Config.EnvParams) : (envStep p s).noteState = s.noteState := by
  obtain ⟨_, _, _, h⟩ := envStep_eq_setEnv s p; simp [h]
@[simp] theorem envStep_activeNote (p : Config.EnvParams) : (envStep p s).activeNote = s.activeNote := by
  obtain ⟨_, _, _, h⟩ := envStep_eq_setEnv s p; simp [h]
@[simp] theorem envStep_sampleRate (p : Config.EnvParams) : (envStep p s).sampleRate = s.sampleRate := by
  obtain ⟨_, _, _, h⟩ := envStep_eq_setEnv s p; simp [h]
@[simp] theorem envStep_dacBits (p : Config.EnvParams) : (envStep p s).dacBits = s.dacBits := by
  obtain ⟨_, _, _, h⟩ := envStep_eq_setEnv s p; simp [h]
@[simp] theorem envStep_outScale (p : Config.EnvParams) : (envStep p s).outScale = s.outScale := by
  obtain ⟨_, _, _, h⟩ := envStep_eq_setEnv s p; simp [h]
@[simp] theorem envStep_carStep (p : Config.EnvParams) : (envStep p s).carStep = s.carStep := by
  obtain ⟨_, _, _, h⟩ := envStep_eq_setEnv s p; simp [h]
@[simp] theorem envStep_modStep (p : Config.EnvParams) : (envStep p s).modStep = s.modStep := by
  obtain ⟨_, _, _, h⟩ := envStep_eq_setEnv s p; simp [h]
@[simp] theorem envStep_carAcc (p : Config.EnvParams) : (envStep p s).carAcc = s.carAcc := by
  obtain ⟨_, _, _, h⟩ := envStep_eq_setEnv s p; simp [h]
@[simp] theorem envStep_modAcc (p : Config.EnvParams) : (envStep p s).modAcc = s.modAcc := by
  obtain ⟨_, _, _, h⟩ := envStep_eq_setEnv s p; simp [h]
@[simp] theorem envStep_lastCode (p : Config.EnvParams) : (envStep p s).lastCode = s.lastCode := by
  obtain ⟨_, _, _, h⟩ := envStep_eq_setEnv s p; simp [h]
@[simp] theorem envStep_lastA (p : Config.EnvParams) : (envStep p s).lastA = s.lastA := by
  obtain ⟨_, _, _, h⟩ := envStep_eq_setEnv s p; simp [h]
@[simp] theorem envStep_norm (p : Config.EnvParams) : (envStep p s).norm = s.norm := by
  obtain ⟨_, _, _, h⟩ := envStep_eq_setEnv s p; simp [h]
@[simp] theorem envStep_dacOut (p : Config.EnvParams) : (envStep p s).dacOut = s.dacOut := by
  obtain ⟨_, _, _, h⟩ := envStep_eq_setEnv s p; simp [h]
@[simp] theorem envStep_rspOut (p : Config.EnvParams) : (envStep p s).rspOut = s.rspOut := by
  obtain ⟨_, _, _, h⟩ := envStep_eq_setEnv s p; simp [h]
@[simp] theorem envStep_control (p : Config.EnvParams) : (envStep p s).control = s.control := by
  obtain ⟨_, _, _, h⟩ := envStep_eq_setEnv s p; simp [h]
@[simp] theorem envStep_ticker (p : Config.EnvParams) : (envStep p s).ticker = s.ticker := by
  obtain ⟨_, _, _, h⟩ := envStep_eq_setEnv s p; simp [h]
@[simp] theorem envStep_arrivals (p : Config.EnvParams) : (envStep p s).arrivals = s.arrivals := by
  obtain ⟨_, _, _, h⟩ := envStep_eq_setEnv s p; simp [h]

/-- The two outcomes of the range check (R189, 42_sample_datapath). -/
theorem emitOrDiscard_cases (code : Int) :
    (codeInRange s.dacBits code = true ∧
      emitOrDiscard code s = (s.emitDac (BitVec.ofInt 16 code)).setLastCode (BitVec.ofInt 16 code)) ∨
    (codeInRange s.dacBits code = false ∧ emitOrDiscard code s = s) := by
  unfold emitOrDiscard
  cases h : codeInRange s.dacBits code <;> simp

@[simp] theorem emitOrDiscard_ctrl (code : Int) : (emitOrDiscard code s).ctrl = s.ctrl := by
  unfold emitOrDiscard; split <;> rfl
@[simp] theorem emitOrDiscard_attackRate (code : Int) : (emitOrDiscard code s).attackRate = s.attackRate := by
  unfold emitOrDiscard; split <;> rfl
@[simp] theorem emitOrDiscard_decayRate (code : Int) : (emitOrDiscard code s).decayRate = s.decayRate := by
  unfold emitOrDiscard; split <;> rfl
@[simp] theorem emitOrDiscard_sustainLevel (code : Int) : (emitOrDiscard code s).sustainLevel = s.sustainLevel := by
  unfold emitOrDiscard; split <;> rfl
@[simp] theorem emitOrDiscard_shapeIn (code : Int) : (emitOrDiscard code s).shapeIn = s.shapeIn := by
  unfold emitOrDiscard; split <;> rfl
@[simp] theorem emitOrDiscard_status (code : Int) : (emitOrDiscard code s).status = s.status := by
  unfold emitOrDiscard; split <;> rfl
@[simp] theorem emitOrDiscard_noteState (code : Int) : (emitOrDiscard code s).noteState = s.noteState := by
  unfold emitOrDiscard; split <;> rfl
@[simp] theorem emitOrDiscard_activeNote (code : Int) : (emitOrDiscard code s).activeNote = s.activeNote := by
  unfold emitOrDiscard; split <;> rfl
@[simp] theorem emitOrDiscard_sampleRate (code : Int) : (emitOrDiscard code s).sampleRate = s.sampleRate := by
  unfold emitOrDiscard; split <;> rfl
@[simp] theorem emitOrDiscard_dacBits (code : Int) : (emitOrDiscard code s).dacBits = s.dacBits := by
  unfold emitOrDiscard; split <;> rfl
@[simp] theorem emitOrDiscard_outScale (code : Int) : (emitOrDiscard code s).outScale = s.outScale := by
  unfold emitOrDiscard; split <;> rfl
@[simp] theorem emitOrDiscard_carStep (code : Int) : (emitOrDiscard code s).carStep = s.carStep := by
  unfold emitOrDiscard; split <;> rfl
@[simp] theorem emitOrDiscard_modStep (code : Int) : (emitOrDiscard code s).modStep = s.modStep := by
  unfold emitOrDiscard; split <;> rfl
@[simp] theorem emitOrDiscard_carAcc (code : Int) : (emitOrDiscard code s).carAcc = s.carAcc := by
  unfold emitOrDiscard; split <;> rfl
@[simp] theorem emitOrDiscard_modAcc (code : Int) : (emitOrDiscard code s).modAcc = s.modAcc := by
  unfold emitOrDiscard; split <;> rfl
@[simp] theorem emitOrDiscard_envMode (code : Int) : (emitOrDiscard code s).envMode = s.envMode := by
  unfold emitOrDiscard; split <;> rfl
@[simp] theorem emitOrDiscard_envLevel (code : Int) : (emitOrDiscard code s).envLevel = s.envLevel := by
  unfold emitOrDiscard; split <;> rfl
@[simp] theorem emitOrDiscard_envStepcnt (code : Int) : (emitOrDiscard code s).envStepcnt = s.envStepcnt := by
  unfold emitOrDiscard; split <;> rfl
@[simp] theorem emitOrDiscard_lastA (code : Int) : (emitOrDiscard code s).lastA = s.lastA := by
  unfold emitOrDiscard; split <;> rfl
@[simp] theorem emitOrDiscard_norm (code : Int) : (emitOrDiscard code s).norm = s.norm := by
  unfold emitOrDiscard; split <;> rfl
@[simp] theorem emitOrDiscard_rspOut (code : Int) : (emitOrDiscard code s).rspOut = s.rspOut := by
  unfold emitOrDiscard; split <;> rfl
@[simp] theorem emitOrDiscard_control (code : Int) : (emitOrDiscard code s).control = s.control := by
  unfold emitOrDiscard; split <;> rfl
@[simp] theorem emitOrDiscard_ticker (code : Int) : (emitOrDiscard code s).ticker = s.ticker := by
  unfold emitOrDiscard; split <;> rfl
@[simp] theorem emitOrDiscard_arrivals (code : Int) : (emitOrDiscard code s).arrivals = s.arrivals := by
  unfold emitOrDiscard; split <;> rfl

@[simp] theorem nextSample_ctrl (a : BitVec 16) : (nextSample a s).ctrl = s.ctrl := by
  simp [nextSample, advancePhase]
@[simp] theorem nextSample_attackRate (a : BitVec 16) : (nextSample a s).attackRate = s.attackRate := by
  simp [nextSample, advancePhase]
@[simp] theorem nextSample_decayRate (a : BitVec 16) : (nextSample a s).decayRate = s.decayRate := by
  simp [nextSample, advancePhase]
@[simp] theorem nextSample_sustainLevel (a : BitVec 16) : (nextSample a s).sustainLevel = s.sustainLevel := by
  simp [nextSample, advancePhase]
@[simp] theorem nextSample_shapeIn (a : BitVec 16) : (nextSample a s).shapeIn = s.shapeIn := by
  simp [nextSample, advancePhase]
@[simp] theorem nextSample_status (a : BitVec 16) : (nextSample a s).status = s.status := by
  simp [nextSample, advancePhase]
@[simp] theorem nextSample_noteState (a : BitVec 16) : (nextSample a s).noteState = s.noteState := by
  simp [nextSample, advancePhase]
@[simp] theorem nextSample_activeNote (a : BitVec 16) : (nextSample a s).activeNote = s.activeNote := by
  simp [nextSample, advancePhase]
@[simp] theorem nextSample_sampleRate (a : BitVec 16) : (nextSample a s).sampleRate = s.sampleRate := by
  simp [nextSample, advancePhase]
@[simp] theorem nextSample_dacBits (a : BitVec 16) : (nextSample a s).dacBits = s.dacBits := by
  simp [nextSample, advancePhase]
@[simp] theorem nextSample_outScale (a : BitVec 16) : (nextSample a s).outScale = s.outScale := by
  simp [nextSample, advancePhase]
@[simp] theorem nextSample_carStep (a : BitVec 16) : (nextSample a s).carStep = s.carStep := by
  simp [nextSample, advancePhase]
@[simp] theorem nextSample_modStep (a : BitVec 16) : (nextSample a s).modStep = s.modStep := by
  simp [nextSample, advancePhase]
@[simp] theorem nextSample_envMode (a : BitVec 16) : (nextSample a s).envMode = s.envMode := by
  simp [nextSample, advancePhase]
@[simp] theorem nextSample_envLevel (a : BitVec 16) : (nextSample a s).envLevel = s.envLevel := by
  simp [nextSample, advancePhase]
@[simp] theorem nextSample_envStepcnt (a : BitVec 16) : (nextSample a s).envStepcnt = s.envStepcnt := by
  simp [nextSample, advancePhase]
@[simp] theorem nextSample_norm (a : BitVec 16) : (nextSample a s).norm = s.norm := by
  simp [nextSample, advancePhase]
@[simp] theorem nextSample_rspOut (a : BitVec 16) : (nextSample a s).rspOut = s.rspOut := by
  simp [nextSample, advancePhase]
@[simp] theorem nextSample_control (a : BitVec 16) : (nextSample a s).control = s.control := by
  simp [nextSample, advancePhase]
@[simp] theorem nextSample_ticker (a : BitVec 16) : (nextSample a s).ticker = s.ticker := by
  simp [nextSample, advancePhase]
@[simp] theorem nextSample_arrivals (a : BitVec 16) : (nextSample a s).arrivals = s.arrivals := by
  simp [nextSample, advancePhase]

/-- The phases advance by their steps, modulo 2^32 (R190, 42_sample_datapath). -/
@[simp] theorem nextSample_carAcc (a : BitVec 16) :
    (nextSample a s).carAcc = s.carAcc + s.carStep := by simp [nextSample, advancePhase]
@[simp] theorem nextSample_modAcc (a : BitVec 16) :
    (nextSample a s).modAcc = s.modAcc + s.modStep := by simp [nextSample, advancePhase]

/-- LAST_A records the parameter used (R191, 42_sample_datapath; R51, 10_state). -/
@[simp] theorem nextSample_lastA (a : BitVec 16) : (nextSample a s).lastA = a := by
  simp [nextSample, advancePhase]

end Sys2Proof.Machine
end

