-- ==== Sys2Proof/Laws/Exec.lean ====
section
/-! SUPPORT. What a command, a word and a step can do, said once: one constructor of `Effect` per
way a command can go, with its guard, so that no later proof unfolds a meaning. -/

namespace Sys2Proof.Machine

/-- Every way a command can take the engine from one state to the next. -/
inductive Effect : Instr → State → State → Prop where
  | illegal {i : Instr} {c : Cause} (s : State) (h : i.operandCause = some c) :
      Effect i s (raiseIllegal i.opcode.byte c s)
  | nop (s : State) : Effect .nop s s
  | init {sr : BitVec 32} {db : BitVec 8} (s : State) (h : initLegal sr db = true) :
      Effect (.init sr db) s
        ((s.setFormat sr (db.setWidth 5) (outScaleOf db)).setPhase 0#32 0#32)
  | setfreqBoth (fc fm : BitVec 24) (s : State) :
      Effect (.setfreq fc fm 1#1) s
        (((s.setCarStep (phaseStep fc s)).setModStep (phaseStep fm s)).setPhase 0#32 0#32)
  | setfreqMod (fc fm : BitVec 24) (s : State) :
      Effect (.setfreq fc fm 0#1) s (s.setModStep (phaseStep fm s))
  | setmod (fm : BitVec 24) (s : State) : Effect (.setmod fm) s (s.setModStep (phaseStep fm s))
  | noteon (cmd note vel : BitVec 8) (s : State) :
      Effect (.noteon cmd note vel) s
        (((s.setEnv .attack 0#17 0#32).setActiveNote note).setNoteState
          (noteStateOf true cmd note vel))
  | noteoff (cmd note vel : BitVec 8) (s : State) :
      Effect (.noteoff cmd note vel) s
        (s.setNoteState (noteStateOf (if note = s.activeNote then false else s.active) cmd note vel))
  | tickActive {s : State} (h : s.active = true) : Effect .tick s (activeTick Config.env s)
  | tickInactive {s : State} (h : s.active = false) : Effect .tick s s
  | wrreg {idx : BitVec 8} {val : BitVec 32} {r : Reg} {s t : State}
      (h : Reg.ofIndex idx = some r) (hw : writeReg r val s = some t) : Effect (.wrreg idx val) s t
  | rdreg {idx : BitVec 8} {r : Reg} (s : State) (h : Reg.ofIndex idx = some r) :
      Effect (.rdreg idx) s (s.emitRsp (readReg r s))
  | wrnorm {idx : BitVec 8} {val : BitVec 24} (s : State) (h : normLegal idx = true) :
      Effect (.wrnorm idx val) s (s.setNorm (s.norm.write idx.toNat val))
  | rdnorm {idx : BitVec 8} (s : State) (h : normLegal idx = true) :
      Effect (.rdnorm idx) s (s.emitRsp ((s.norm.read idx.toNat).setWidth 32))

/-- Indices 0x14 to 0xFF name no register (R33, 10_state). -/
theorem ofIndex_none {idx : BitVec 8} (h : 0x14 ≤ idx.toNat) : Reg.ofIndex idx = none := by
  unfold Reg.ofIndex; split <;> first | omega | rfl

/-- An index up to 0x13 names a register (R33). -/
theorem ofIndex_some {idx : BitVec 8} (h : idx.toNat ≤ 0x13) : ∃ r, Reg.ofIndex idx = some r := by
  have all : ∀ n < 20, (Reg.ofIndex (BitVec.ofNat 8 n)).isSome = true := by decide
  have := all idx.toNat (by omega)
  rw [BitVec.ofNat_toNat, BitVec.setWidth_eq] at this
  exact Option.isSome_iff_exists.mp this

/-- A named register has that index (R33). -/
theorem index_of_ofIndex {idx : BitVec 8} {r : Reg} (h : Reg.ofIndex idx = some r) :
    r.index = idx := by
  apply BitVec.eq_of_toNat_eq
  unfold Reg.ofIndex at h
  split at h <;> cases h <;> simp [Reg.index, *]

/-- Nothing above 0x05 can be written (R33, R271). -/
theorem bind_writeReg_none {idx : BitVec 8} (v : BitVec 32) (s : State) (h : 0x06 ≤ idx.toNat) :
    (Reg.ofIndex idx).bind (fun r => writeReg r v s) = none := by
  unfold Reg.ofIndex; split <;> first | omega | rfl

/-- A write that succeeds goes to one of the six writable registers (R33 to R39). -/
theorem writeReg_some {r : Reg} {v : BitVec 32} {s t : State} (h : writeReg r v s = some t) :
    (r = .ctrl ∧ t = s.setCtrl (v.setWidth 4)) ∨
    (r = .attackRate ∧ t = s.setAttackRate (v.setWidth 16)) ∨
    (r = .decayRate ∧ t = s.setDecayRate (v.setWidth 16)) ∨
    (r = .sustainLevel ∧ t = s.setSustainLevel (clampLevel v)) ∨
    (r = .shapeIn ∧ t = s.setShapeIn v) ∨ (r = .status ∧ t = writeStatus v s) := by
  cases r <;> simp only [writeReg, Option.some.injEq, reduceCtorEq] at h <;> subst h <;> simp

/-- A refused write is of an index above 0x05. -/
theorem bind_writeReg_eq_none {idx : BitVec 8} {v : BitVec 32} {s : State}
    (h : (Reg.ofIndex idx).bind (fun r => writeReg r v s) = none) : 0x06 ≤ idx.toNat := by
  by_contra hn
  obtain ⟨r, hr⟩ := ofIndex_some (idx := idx) (by omega)
  have hi := index_of_ofIndex hr
  rw [hr] at h
  cases r <;> simp only [Option.bind_some, writeReg, reduceCtorEq] at h <;>
    (rw [← hi] at hn; exact hn (by decide))

/-- The meaning of a command is exactly its `Effect`. -/
theorem exec_effect {i : Instr} {s t : State} (h : exec i s = .next t) : Effect i s t := by
  cases i with
  | nop => cases h; exact .nop s
  | init sr db =>
      simp only [exec, execInit] at h
      split at h <;> rename_i hl <;> cases h
      · exact .init s hl
      · refine Effect.illegal s ?_
        unfold Instr.operandCause
        rw [if_neg (by simpa [Instr.WellFormed, initLegal] using hl)]
  | setfreq fc fm r =>
      simp only [exec, execSetfreq] at h
      split at h <;> rename_i hr <;> cases h
      · subst hr; exact .setfreqBoth fc fm s
      · have : r = 0#1 := by
          have := r.isLt
          apply BitVec.eq_of_toNat_eq
          have h1 : r.toNat ≠ 1 := fun e => hr (BitVec.eq_of_toNat_eq e)
          change r.toNat = 0
          omega
        subst this; exact .setfreqMod fc fm s
  | setmod fm => cases h; exact .setmod fm s
  | noteon cmd note vel => cases h; exact .noteon cmd note vel s
  | noteoff cmd note vel => cases h; exact .noteoff cmd note vel s
  | tick =>
      simp only [exec, execTick] at h
      split at h <;> rename_i ha <;> cases h
      · exact .tickActive ha
      · exact .tickInactive (by simpa using ha)
  | wrreg idx val =>
      simp only [exec, execWrreg] at h
      split at h <;> rename_i hw <;> cases h
      · obtain ⟨r, hr, hv⟩ := Option.bind_eq_some_iff.mp hw
        exact .wrreg hr hv
      · refine Effect.illegal s ?_
        have := bind_writeReg_eq_none hw
        unfold Instr.operandCause
        rw [if_neg (by simpa [Instr.WellFormed, Nat.lt_iff_add_one_le] using this)]
  | rdreg idx =>
      simp only [exec, execRdreg] at h
      split at h <;> rename_i hr <;> cases h
      · exact .rdreg s hr
      · refine Effect.illegal s ?_
        have : ¬ idx.toNat ≤ 0x13 := fun hle => by
          obtain ⟨r, e⟩ := ofIndex_some hle; rw [hr] at e; cases e
        unfold Instr.operandCause
        rw [if_neg (by simpa [Instr.WellFormed] using this)]
  | wrnorm idx val =>
      simp only [exec, execWrnorm] at h
      split at h <;> rename_i hl <;> cases h
      · exact .wrnorm s hl
      · refine Effect.illegal s ?_
        unfold Instr.operandCause
        rw [if_neg (by simpa [Instr.WellFormed, normLegal] using hl)]
  | rdnorm idx =>
      simp only [exec, execRdnorm] at h
      split at h <;> rename_i hl <;> cases h
      · exact .rdnorm s hl
      · refine Effect.illegal s ?_
        unfold Instr.operandCause
        rw [if_neg (by simpa [Instr.WellFormed, normLegal] using hl)]

/-- A command answers a next state, its `Effect`. -/
theorem exec_next (i : Instr) (s : State) : ∃ t, exec i s = .next t ∧ Effect i s t := by
  have : ∃ t, exec i s = .next t := by
    cases i <;> simp only [exec, execNop, execInit, execSetfreq, execSetmod, execNoteon,
      execNoteoff, execTick, execWrreg, execRdreg, execWrnorm, execRdnorm] <;>
      (try split) <;> exact ⟨_, rfl⟩
  obtain ⟨t, h⟩ := this
  exact ⟨t, h, exec_effect h⟩

/-- A command whose operand check fails raises that cause (R142, R271 to R274, R302). -/
theorem exec_illegal {i : Instr} {c : Cause} (s : State) (h : i.operandCause = some c) :
    exec i s = .next (raiseIllegal i.opcode.byte c s) := by
  unfold Instr.operandCause at h
  split at h
  · cases h
  · rename_i hw
    cases i <;> simp only [Option.some.injEq, reduceCtorEq] at h <;> subst h <;>
      simp only [Instr.WellFormed] at hw
    · simp only [exec, execInit, initLegal, hw]; rfl
    · rename_i idx v
      simp only [exec, execWrreg, bind_writeReg_none v s (not_le.mp (by simpa using hw))]; rfl
    · rename_i idx
      simp only [exec, execRdreg, ofIndex_none (not_le.mp (by simpa using hw))]; rfl
    · simp only [exec, execWrnorm, normLegal, hw]; rfl
    · simp only [exec, execRdnorm, normLegal, hw]; rfl

/-- A word either decodes and has its command's effect, or raises the decoder's cause. -/
theorem runWord_cases (w : Word) (s : State) : ∃ t, runWord w s = .next t ∧
    ((∃ c, decode w = .error c ∧ t = raiseIllegal (opcodeByte w) c s) ∨
      ∃ i, decode w = .ok i ∧ Effect i s t) := by
  unfold runWord
  split
  · rename_i i hi
    obtain ⟨t, ht, he⟩ := exec_next i s
    exact ⟨t, ht, .inr ⟨i, hi, he⟩⟩
  · rename_i c hc
    exact ⟨_, rfl, .inl ⟨c, hc, rfl⟩⟩

/-- An illegal word is one raise of its cause (R301). -/
theorem runWord_illegal {w : Word} {c : Cause} (s : State) (h : wordCause w = some c) :
    runWord w s = .next (raiseIllegal (opcodeByte w) c s) := by
  unfold wordCause at h
  split at h
  · rename_i i hd
    rw [(decode_ok hd).1]
    simp only [runWord, hd]
    exact exec_illegal s h
  · rename_i hd; cases h
    simp only [runWord, hd]

/-- What a step finds at the port, the rest of the state being as it was (R82, R342). -/
theorem arrival_cases (s : State) :
    (∃ c t es, arrival s = .idle (s.setInput c t es)) ∨
    (∃ w c t es, arrival s = .word w (s.setInput c t es)) ∨
    ∃ c t es, arrival s = .reset (s.setInput c t es) := by
  have drop : ∀ a es, ∃ c t es', dropWord a es s = s.setInput c t es' := by
    intro a es; cases a <;> exact ⟨_, _, _, rfl⟩
  unfold arrival
  split
  · exact .inl ⟨s.control, s.ticker, s.arrivals, rfl⟩
  · rename_i a es h
    split
    · exact .inl ⟨_, _, _, rfl⟩
    · obtain ⟨c, t, es', e⟩ := drop a es
      rw [e]; exact .inr (.inl ⟨_, _, _, _, rfl⟩)
  · exact .inr (.inr ⟨_, _, _, rfl⟩)
  · rename_i a es h
    obtain ⟨c, t, es', e⟩ := drop a es
    rw [e]; exact .inr (.inr ⟨_, _, _, rfl⟩)

/-- The clear of STATUS either zeroes it or changes nothing (R39). -/
theorem writeStatus_cases (v : BitVec 32) (s : State) :
    (v.getLsbD 0 = true ∧ writeStatus v s = s.setStatus 0#16) ∨
      (v.getLsbD 0 = false ∧ writeStatus v s = s) := by
  unfold writeStatus
  cases h : v.getLsbD 0 <;> simp

/-- The phase step of a state whose rate is not 0 (R160). -/
theorem phaseStep_eq (f : BitVec 24) {s : State} (h : s.sampleRate ≠ 0#32) :
    phaseStep f s = BitVec.ofNat 32 (f.toNat * 2 ^ 32 / phaseDivisor s) := by
  rw [phaseStep, if_neg h]

/-- A raise sets ILL and records its cause (R39, R301). -/
theorem raiseIllegal_record (op : BitVec 8) (c : Cause) (s : State) :
    (raiseIllegal op c s).ill = true ∧ (raiseIllegal op c s).cause = c.code := by
  have : (statusOf c.code).getLsbD 0 = true ∧ (statusOf c.code).extractLsb' 8 8 = c.code := by
    cases c <;> decide
  exact ⟨by simpa [State.ill] using this.1, by simpa [State.cause] using this.2⟩

/-- STATUS after a raise as software reads it: the code, seven zero bits and ILL (R39, R301). -/
theorem readReg_status_raiseIllegal (op : BitVec 8) (c : Cause) (s : State) :
    (readReg .status (raiseIllegal op c s)).toNat = 256 * c.code.toNat + 1 := by
  simp only [readReg, raiseIllegal_status]
  cases c <;> rfl

/-- A frame from its parts. -/
theorem writesOnly_of {rs : List Reg} {s t : State} (h : KeepsRegs rs s t)
    (hn : t.norm = s.norm) (hd : t.dacOut = s.dacOut) (hr : t.rspOut = s.rspOut)
    (hi : KeepsInputs s t) : WritesOnly rs s t :=
  ⟨h, fun k => by rw [hn], ⟨hd, hr⟩, hi⟩

/-- A raise under an opcode that reads nothing writes STATUS alone (R301). -/
theorem raiseIllegal_writesOnly {op : BitVec 8} (c : Cause) (s : State)
    (h : isReadOpcode op = false) : WritesOnly [.status] s (raiseIllegal op c s) :=
  writesOnly_of (fun r hr => readReg_raiseIllegal s op c (by simpa using hr)) (by simp) (by simp)
    (by simp [raiseIllegal_rspOut, h]) (by simp [KeepsInputs])

/-- The legal statuses hold what every raise writes (R302). -/
theorem statusLegal_statusOf (c : Cause) : statusLegal (statusOf c.code) = true := by
  cases c <;> decide

end Sys2Proof.Machine
end

