-- ==== Sys2Proof/Laws/Flags.lean ====
section
/-! SUPPORT. NOTE_STATE from its fields (R40, 10_state). -/

namespace Sys2Proof.Machine

/-- ACTIVE is the field it was made with. -/
theorem noteStateOf_active (a : Bool) (c n v : BitVec 8) :
    (noteStateOf a c n v).getLsbD 24 = a := by
  cases a <;> simp [noteStateOf, -BitVec.getLsbD_eq_getElem]

/-- NOTE_STATE as a number. -/
theorem toNat_noteStateOf (a : Bool) (c n v : BitVec 8) :
    (noteStateOf a c n v).toNat =
      (if a then 2 ^ 24 else 0) + c.toNat * 2 ^ 16 + n.toNat * 2 ^ 8 + v.toNat := by
  have hc := c.isLt; have hn := n.isLt; have hv := v.isLt
  have h1 : (n.setWidth 25 <<< 8 : BitVec 25).toNat = n.toNat * 2 ^ 8 := by
    simp [BitVec.toNat_shiftLeft, Nat.shiftLeft_eq]; omega
  have h2 : (c.setWidth 25 <<< 16 : BitVec 25).toNat = c.toNat * 2 ^ 16 := by
    simp [BitVec.toNat_shiftLeft, Nat.shiftLeft_eq]; omega
  have h3 : ((BitVec.ofBool a).setWidth 25 <<< 24 : BitVec 25).toNat =
      (if a then 1 else 0) * 2 ^ 24 := by cases a <;> simp
  have h4 : (v.setWidth 25 : BitVec 25).toNat = v.toNat := by simp; omega
  have o1 : n.toNat * 2 ^ 8 ||| v.toNat = n.toNat * 2 ^ 8 + v.toNat := by
    rw [Nat.mul_comm, ← Nat.two_pow_add_eq_or_of_lt hv]
  have o2 : c.toNat * 2 ^ 16 ||| (n.toNat * 2 ^ 8 + v.toNat) =
      c.toNat * 2 ^ 16 + (n.toNat * 2 ^ 8 + v.toNat) := by
    rw [Nat.mul_comm c.toNat, ← Nat.two_pow_add_eq_or_of_lt (by omega)]
  have o3 : (if a then 1 else 0) * 2 ^ 24 ||| (c.toNat * 2 ^ 16 + (n.toNat * 2 ^ 8 + v.toNat)) =
      (if a then 1 else 0) * 2 ^ 24 + (c.toNat * 2 ^ 16 + (n.toNat * 2 ^ 8 + v.toNat)) := by
    rw [Nat.mul_comm (if a then 1 else 0), ← Nat.two_pow_add_eq_or_of_lt (by omega)]
  simp only [noteStateOf, BitVec.toNat_or, h1, h2, h3, h4]
  rw [Nat.or_assoc, Nat.or_assoc, o1, o2, o3]
  cases a <;> simp <;> omega

end Sys2Proof.Machine
end

