-- ==== Sys2Proof/Laws/Memory.lean ====
section
/-! SUPPORT. The laws of the normalisation RAM's operations: a read after a write, and that a write
keeps the canonical form. The read laws hold of every list, canonical or not. -/

namespace Sys2Proof.Machine

theorem Memory.read_erase_same (m : Memory) (k : Nat) :
    (Memory.erase m k).read k = Config.normReset := by
  induction m with
  | nil => rfl
  | cons p m ih =>
      obtain ⟨a, v⟩ := p
      by_cases h : a = k
      · simpa [Memory.erase, h] using ih
      · simpa [Memory.erase, Memory.read, h] using ih

theorem Memory.read_erase_other (m : Memory) {j k : Nat} (h : j ≠ k) :
    (Memory.erase m k).read j = m.read j := by
  induction m with
  | nil => rfl
  | cons p m ih =>
      obtain ⟨a, v⟩ := p
      by_cases hk : a = k
      · simpa [Memory.erase, Memory.read, hk, Ne.symm h] using ih
      · by_cases hj : a = j
        · subst hj; simp [Memory.erase, Memory.read, hk]
        · simp [Memory.erase, Memory.read, hk, hj, ih]

theorem Memory.read_insert_other (m : Memory) {j k : Nat} (v : BitVec 24) (h : j ≠ k) :
    (Memory.insert m k v).read j = m.read j := by
  induction m with
  | nil => simp [Memory.insert, Memory.read, Ne.symm h]
  | cons p m ih =>
      obtain ⟨a, w⟩ := p
      by_cases hk : k < a
      · simp [Memory.insert, Memory.read, hk, Ne.symm h]
      · by_cases hj : a = j
        · subst hj; simp [Memory.insert, Memory.read, hk]
        · simp [Memory.insert, Memory.read, hk, hj, ih]

/-- Where `k` is listed nowhere, the entry put in is the one read. -/
theorem Memory.read_insert_erase (m : Memory) (k : Nat) (v : BitVec 24) :
    (Memory.insert (Memory.erase m k) k v).read k = v := by
  induction m with
  | nil => simp [Memory.erase, Memory.insert, Memory.read]
  | cons p m ih =>
      obtain ⟨a, w⟩ := p
      by_cases ha : a = k
      · simpa [Memory.erase, ha] using ih
      · by_cases hk : k < a <;> simp [Memory.erase, Memory.insert, Memory.read, ha, hk, ih]

/-- A read gives what was last written to its index. -/
theorem Memory.read_write_same (m : Memory) (k : Nat) (v : BitVec 24) :
    (m.write k v).read k = v := by
  by_cases h : v = Config.normReset
  · simp [Memory.write, h, Memory.read_erase_same]
  · simp [Memory.write, h, Memory.read_insert_erase]

/-- A write leaves every other index alone. -/
theorem Memory.read_write_other (m : Memory) {j k : Nat} (v : BitVec 24) (h : j ≠ k) :
    (m.write k v).read j = m.read j := by
  by_cases hv : v = Config.normReset
  · simp [Memory.write, hv, Memory.read_erase_other m h]
  · simp [Memory.write, hv, Memory.read_insert_other _ v h, Memory.read_erase_other m h]

theorem Memory.wfFrom_mono {lo lo' : Nat} (m : Memory) (h : lo' ≤ lo)
    (hm : Memory.wfFrom lo m = true) : Memory.wfFrom lo' m = true := by
  cases m with
  | nil => rfl
  | cons p m =>
      obtain ⟨a, v⟩ := p
      simp only [Memory.wfFrom, Bool.and_eq_true, decide_eq_true_eq] at hm ⊢
      exact ⟨by omega, hm.2⟩

theorem Memory.wfFrom_erase (m : Memory) (k lo : Nat) (hm : Memory.wfFrom lo m = true) :
    Memory.wfFrom lo (Memory.erase m k) = true := by
  induction m generalizing lo with
  | nil => rfl
  | cons p m ih =>
      obtain ⟨a, v⟩ := p
      simp only [Memory.wfFrom, Bool.and_eq_true, decide_eq_true_eq] at hm
      obtain ⟨h1, h2, h3, h4⟩ := hm
      by_cases ha : a = k
      · simpa [Memory.erase, ha] using
          Memory.wfFrom_mono _ (by omega : lo ≤ a + 1) (ha ▸ ih (a + 1) h4)
      · simp [Memory.erase, ha, Memory.wfFrom, h1, h2, h3, ih (a + 1) h4]

theorem Memory.wfFrom_insert_erase (m : Memory) (k lo : Nat) (v : BitVec 24) (hlo : lo ≤ k)
    (hk : k < Config.normLevels) (hv : v ≠ Config.normReset) (hm : Memory.wfFrom lo m = true) :
    Memory.wfFrom lo (Memory.insert (Memory.erase m k) k v) = true := by
  induction m generalizing lo with
  | nil =>
      simp only [Memory.erase, Memory.insert, Memory.wfFrom, Bool.and_eq_true, decide_eq_true_eq]
      exact ⟨hlo, hk, hv, trivial⟩
  | cons p m ih =>
      obtain ⟨a, w⟩ := p
      simp only [Memory.wfFrom, Bool.and_eq_true, decide_eq_true_eq] at hm
      obtain ⟨h1, h2, h3, h4⟩ := hm
      by_cases ha : a = k
      · have := ih lo hlo (Memory.wfFrom_mono m (by omega : lo ≤ a + 1) h4)
        simpa [Memory.erase, ha] using this
      · by_cases hka : k < a
        · simp only [Memory.erase, ha, if_false, Memory.insert, hka, if_true, Memory.wfFrom,
            Bool.and_eq_true, decide_eq_true_eq]
          exact ⟨hlo, hk, hv, by omega, h2, h3, Memory.wfFrom_erase m k (a + 1) h4⟩
        · have := ih (a + 1) (by omega) h4
          simp only [Memory.erase, ha, if_false, Memory.insert, hka, Memory.wfFrom,
            Bool.and_eq_true, decide_eq_true_eq]
          exact ⟨h1, h2, h3, this⟩

/-- A write to an index of the RAM keeps the canonical form. -/
theorem Memory.wf_write (m : Memory) (k : Nat) (v : BitVec 24) (hk : k < Config.normLevels)
    (hm : m.wf = true) : (m.write k v).wf = true := by
  by_cases hv : v = Config.normReset
  · simpa [Memory.write, hv, Memory.wf] using Memory.wfFrom_erase m k 0 hm
  · simpa [Memory.write, hv, Memory.wf] using
      Memory.wfFrom_insert_erase m k 0 v (Nat.zero_le k) hk hv hm

/-- The RAM at reset has the canonical form. -/
theorem Memory.wf_reset : State.reset.norm.wf = true := rfl

end Sys2Proof.Machine
end

