-- ==== Sys2Proof/Laws/PerInstr.lean ====
section
/-! SUPPORT. The per-instruction family Encoding: the encoder's word of a command carries its opcode
byte, sets no reserved bit of its format, and holds every operand in its field. -/

namespace Sys2Proof.Laws.Encoding

/-- What the word of a command must show to the decode algorithm of R115 (30_encoding). -/
def Statement (i : Instr) : Prop :=
  opcodeByte (encode i) = i.opcode.byte ∧
    encode i &&& i.opcode.format.reservedMask = 0#64 ∧ i.opcode.read (encode i) = i

theorem nop : Statement .nop := by
  exact ⟨by decide, by decide, rfl⟩

theorem init (sr : BitVec 32) (db : BitVec 8) : Statement (.init sr db) := by
  refine ⟨?_, ?_, ?_⟩
  · simp [opcodeByte, encode, Instr.opcode, field_or, field_place_same, field_place_apart]
  · simp only [encode, Instr.opcode, Opcode.format, Format.reservedMask]
    exact or_and_mask (or_and_mask (place_and_mask _ (by decide)) (place_and_mask _ (by decide)))
      (place_and_mask _ (by decide))
  · simp [encode, Instr.opcode, Opcode.read, field_or, field_place_same, field_place_apart]

theorem setfreq (fc fm : BitVec 24) (r : BitVec 1) : Statement (.setfreq fc fm r) := by
  refine ⟨?_, ?_, ?_⟩
  · simp [opcodeByte, encode, Instr.opcode, field_or, field_place_same, field_place_apart]
  · simp only [encode, Instr.opcode, Opcode.format, Format.reservedMask]
    exact or_and_mask (or_and_mask (or_and_mask (place_and_mask _ (by decide)) (place_and_mask _ (by decide)))
      (place_and_mask _ (by decide))) (place_and_mask _ (by decide))
  · simp [encode, Instr.opcode, Opcode.read, field_or, field_place_same, field_place_apart]

theorem setmod (fm : BitVec 24) : Statement (.setmod fm) := by
  refine ⟨?_, ?_, ?_⟩
  · simp [opcodeByte, encode, Instr.opcode, field_or, field_place_same, field_place_apart]
  · simp only [encode, Instr.opcode, Opcode.format, Format.reservedMask]
    exact or_and_mask (place_and_mask _ (by decide)) (place_and_mask _ (by decide))
  · simp [encode, Instr.opcode, Opcode.read, field_or, field_place_same, field_place_apart]

theorem noteon (cmd note vel : BitVec 8) : Statement (.noteon cmd note vel) := by
  refine ⟨?_, ?_, ?_⟩
  · simp [opcodeByte, encode, Instr.opcode, field_or, field_place_same, field_place_apart]
  · simp only [encode, Instr.opcode, Opcode.format, Format.reservedMask]
    exact or_and_mask (or_and_mask (or_and_mask (place_and_mask _ (by decide)) (place_and_mask _ (by decide)))
      (place_and_mask _ (by decide))) (place_and_mask _ (by decide))
  · simp [encode, Instr.opcode, Opcode.read, field_or, field_place_same, field_place_apart]

theorem noteoff (cmd note vel : BitVec 8) : Statement (.noteoff cmd note vel) := by
  refine ⟨?_, ?_, ?_⟩
  · simp [opcodeByte, encode, Instr.opcode, field_or, field_place_same, field_place_apart]
  · simp only [encode, Instr.opcode, Opcode.format, Format.reservedMask]
    exact or_and_mask (or_and_mask (or_and_mask (place_and_mask _ (by decide)) (place_and_mask _ (by decide)))
      (place_and_mask _ (by decide))) (place_and_mask _ (by decide))
  · simp [encode, Instr.opcode, Opcode.read, field_or, field_place_same, field_place_apart]

theorem tick : Statement .tick := by
  exact ⟨by decide, by decide, rfl⟩

theorem wrreg (idx : BitVec 8) (val : BitVec 32) : Statement (.wrreg idx val) := by
  refine ⟨?_, ?_, ?_⟩
  · simp [opcodeByte, encode, Instr.opcode, field_or, field_place_same, field_place_apart]
  · simp only [encode, Instr.opcode, Opcode.format, Format.reservedMask]
    exact or_and_mask (or_and_mask (place_and_mask _ (by decide)) (place_and_mask _ (by decide)))
      (place_and_mask _ (by decide))
  · simp [encode, Instr.opcode, Opcode.read, field_or, field_place_same, field_place_apart]

theorem rdreg (idx : BitVec 8) : Statement (.rdreg idx) := by
  refine ⟨?_, ?_, ?_⟩
  · simp [opcodeByte, encode, Instr.opcode, field_or, field_place_same, field_place_apart]
  · simp only [encode, Instr.opcode, Opcode.format, Format.reservedMask]
    exact or_and_mask (place_and_mask _ (by decide)) (place_and_mask _ (by decide))
  · simp [encode, Instr.opcode, Opcode.read, field_or, field_place_same, field_place_apart]

theorem wrnorm (idx : BitVec 8) (val : BitVec 24) : Statement (.wrnorm idx val) := by
  refine ⟨?_, ?_, ?_⟩
  · simp [opcodeByte, encode, Instr.opcode, field_or, field_place_same, field_place_apart]
  · simp only [encode, Instr.opcode, Opcode.format, Format.reservedMask]
    exact or_and_mask (or_and_mask (place_and_mask _ (by decide)) (place_and_mask _ (by decide)))
      (place_and_mask _ (by decide))
  · simp [encode, Instr.opcode, Opcode.read, field_or, field_place_same, field_place_apart]

theorem rdnorm (idx : BitVec 8) : Statement (.rdnorm idx) := by
  refine ⟨?_, ?_, ?_⟩
  · simp [opcodeByte, encode, Instr.opcode, field_or, field_place_same, field_place_apart]
  · simp only [encode, Instr.opcode, Opcode.format, Format.reservedMask]
    exact or_and_mask (place_and_mask _ (by decide)) (place_and_mask _ (by decide))
  · simp [encode, Instr.opcode, Opcode.read, field_or, field_place_same, field_place_apart]

end Sys2Proof.Laws.Encoding
end

