-- ==== Sys2Proof/Laws/Port.lean ====
section
/-! SUPPORT. What the command port can give a step (R82, 20_memory; R342, 70_reset_and_hazards), that
a word's effect does not depend on what is still to arrive, and runs of words and of ticks. -/

namespace Sys2Proof.Machine

theorem dropWord_control (es : List PortEvent) (s : State) :
    dropWord .control es s = s.setInput s.control.tail s.ticker es := rfl

theorem dropWord_ticker (es : List PortEvent) (s : State) :
    dropWord .ticker es s = s.setInput s.control s.ticker.tail es := rfl

/-- With no arrival a step changes nothing. -/
theorem step_no_arrival {s : State} (h : s.arrivals = []) : step s = .next s := by
  simp [step, arrival, h]

/-- The word placed for the next step is the one that step executes, on the state as it was. -/
theorem step_withFetchWord (s : State) (nbits w : Nat) :
    step (s.withFetchWord nbits w) = runWord (BitVec.ofNat 64 (w % 2 ^ nbits)) s := rfl

/-- What the reset signal leaves: every register at its reset value. -/
theorem readReg_applyReset (r : Reg) (s : State) :
    readReg r (applyReset s) = readReg r State.reset := by cases r <;> rfl

/-- What the reset signal leaves: NORM at reset, the ports as they were. -/
theorem applyReset_rest (s : State) :
    (applyReset s).norm = State.reset.norm ∧ KeepsOutputs s (applyReset s) ∧
      KeepsInputs s (applyReset s) := ⟨rfl, ⟨rfl, rfl⟩, rfl, rfl, rfl⟩

/-- One more step of a run. -/
theorem run_succ {n : Nat} {s t : State} (h : step s = .next t) :
    Host.Core.run core (n + 1) s = Host.Core.run core n t := by
  have h' : core.step s = .next t := h
  simp only [Host.Core.run, h']

theorem envStep_attack {p : Config.EnvParams} {s : State} (h : s.envMode = .attack) :
    envStep p s = attackStep p s := by simp [envStep, h]

theorem envStep_decay {p : Config.EnvParams} {s : State} (h : s.envMode = .decay) :
    envStep p s = decayStep p s := by simp [envStep, h]

theorem envStep_sustain {p : Config.EnvParams} {s : State} (h : s.envMode = .sustain) :
    envStep p s = sustainStep s := by simp [envStep, h]

theorem envStep_release {p : Config.EnvParams} {s : State} (h : s.envMode = .release) :
    envStep p s = s := by simp [envStep, h]

theorem envStep_setInput (p : Config.EnvParams) (s : State) (c t : List Word)
    (es : List PortEvent) : envStep p (s.setInput c t es) = (envStep p s).setInput c t es := by
  cases h : s.envMode
  · rw [envStep_attack (s := s.setInput c t es) h, envStep_attack h]
    change (if p.max ≤ attackLevel p s then _ else _) =
      State.setInput (if p.max ≤ attackLevel p s then _ else _) c t es
    split <;> rfl
  · rw [envStep_decay (s := s.setInput c t es) h, envStep_decay h]
    change (if decayLevel p s ≤ s.sustainLevel.toNat then _ else _) =
      State.setInput (if decayLevel p s ≤ s.sustainLevel.toNat then _ else _) c t es
    split <;> rfl
  · rw [envStep_sustain (s := s.setInput c t es) h, envStep_sustain h]; rfl
  · rw [envStep_release (s := s.setInput c t es) h, envStep_release h]

theorem nextSample_setInput (a : BitVec 16) (s : State) (c t : List Word) (es : List PortEvent) :
    nextSample a (s.setInput c t es) = (nextSample a s).setInput c t es := by
  change advancePhase (if codeInRange s.dacBits (sampleCode a s) then _ else _) =
    State.setInput (advancePhase (if codeInRange s.dacBits (sampleCode a s) then _ else _)) c t es
  split <;> rfl

theorem activeTick_setInput (p : Config.EnvParams) (s : State) (c t : List Word)
    (es : List PortEvent) : activeTick p (s.setInput c t es) = (activeTick p s).setInput c t es := by
  simp only [activeTick, envStep_setInput]
  exact nextSample_setInput _ _ _ _ _

theorem raiseIllegal_setInput (op : BitVec 8) (cs : Cause) (s : State) (c t : List Word)
    (es : List PortEvent) :
    raiseIllegal op cs (s.setInput c t es) = (raiseIllegal op cs s).setInput c t es := by
  unfold raiseIllegal; split <;> rfl

/-- A command neither reads nor writes what is still to arrive (R82). -/
theorem exec_setInput {i : Instr} {s u : State} (h : exec i s = .next u) (c t : List Word)
    (es : List PortEvent) : exec i (s.setInput c t es) = .next (u.setInput c t es) := by
  cases exec_effect h with
  | illegal _ hc => rw [exec_illegal _ hc, raiseIllegal_setInput]
  | tickActive ha =>
      have ha' : (s.setInput c t es).active = true := ha
      simp only [exec, execTick, ha', if_true, activeTick_setInput]
  | tickInactive ha =>
      have ha' : (s.setInput c t es).active = false := ha
      simp [exec, execTick, ha']
  | @wrreg idx v r _ _ hr hw =>
      have : writeReg r v (s.setInput c t es) = some (u.setInput c t es) := by
        rcases writeReg_some hw with ⟨rfl, rfl⟩ | ⟨rfl, rfl⟩ | ⟨rfl, rfl⟩ | ⟨rfl, rfl⟩ |
          ⟨rfl, rfl⟩ | ⟨rfl, rfl⟩
        all_goals try rfl
        simp only [writeReg, writeStatus]; split <;> rfl
      simp [exec, execWrreg, hr, this]
  | rdreg _ hr => simp only [exec, execRdreg, hr, readReg_setInput]; rfl
  | wrnorm _ hl => simp only [exec, execWrnorm, hl, if_true]; rfl
  | rdnorm _ hl => simp only [exec, execRdnorm, hl, if_true]; rfl
  | init _ hl => simp only [exec, execInit, hl, if_true]; rfl
  | _ => rfl

/-- Nor does a word. -/
theorem runWord_setInput {w : Word} {s u : State} (h : runWord w s = .next u) (c t : List Word)
    (es : List PortEvent) : runWord w (s.setInput c t es) = .next (u.setInput c t es) := by
  unfold runWord at h ⊢
  split at h
  · exact exec_setInput h _ _ _
  · cases h; rw [raiseIllegal_setInput]

/-- A command leaves the inputs as they are. -/
theorem Effect.keepsInputs {i : Instr} {s t : State} (h : Effect i s t) : KeepsInputs s t := by
  cases h with
  | wrreg hr hw =>
      rcases writeReg_some hw with ⟨rfl, rfl⟩ | ⟨rfl, rfl⟩ | ⟨rfl, rfl⟩ | ⟨rfl, rfl⟩ |
        ⟨rfl, rfl⟩ | ⟨rfl, rfl⟩ <;> (try unfold writeStatus) <;> (try split) <;>
        simp [KeepsInputs]
  | tickActive => simp [KeepsInputs, activeTick]
  | _ => simp [KeepsInputs]

/-- A word leaves the inputs as they are. -/
theorem runWord_keepsInputs {w : Word} {s t : State} (h : runWord w s = .next t) :
    KeepsInputs s t := by
  obtain ⟨t', ht, hc⟩ := runWord_cases w s
  rw [h] at ht; cases ht
  rcases hc with ⟨c, -, rfl⟩ | ⟨i, -, he⟩
  · simp [KeepsInputs]
  · exact he.keepsInputs

/-- Words in two parts. -/
theorem runWords_append {ws : List Word} (vs : List Word) {s t : State}
    (h : runWords ws s = .next t) : runWords (ws ++ vs) s = runWords vs t := by
  induction ws generalizing s with
  | nil => cases h; rfl
  | cons w ws ih =>
      obtain ⟨u, hu, -⟩ := runWord_cases w s
      simp only [runWords, hu, List.cons_append] at h ⊢
      exact ih h

/-- One more tick of a run of ticks, while the gate is open. -/
theorem runTicks_succ {n : Nat} {s t : State} (h : runTicks n s = .next t)
    (ha : t.active = true) : runTicks (n + 1) s = .next (activeTick Config.env t) := by
  have : runWord (encode .tick) t = .next (activeTick Config.env t) := by
    change exec .tick t = _
    simp [exec, execTick, ha]
  unfold runTicks at h ⊢
  rw [List.replicate_succ', runWords_append _ h]
  simp only [runWords, this]

end Sys2Proof.Machine
end

