-- ==== Sys2Proof/Tests/Slice0.lean ====
section
/-! SUPPORT. The model's own tests. Expected values come from the spec: the words from the formats of
R103 to R109 (30_encoding) written field by field, the results from the tables of 95_test_vectors.
After them, for every obligation with hypotheses, a named witness that meets them, at the ends of
their ranges. -/

namespace Sys2Proof.Machine

/-! ### Decoding -/

/-- Format Z: OP, 56 reserved bits. -/
theorem test_decode_nop : decode (0x00#8 ++ 0#56) = .ok .nop := by decide

theorem test_decode_tick : decode (0x06#8 ++ 0#56) = .ok .tick := by decide

/-- Format I: OP, DB, 16 reserved bits, SR. -/
theorem test_decode_init : decode (0x01#8 ++ 12#8 ++ 0#16 ++ 40000#32) = .ok (.init 40000 12) := by
  decide

/-- Format F: OP, 7 reserved bits, R, FC, FM. -/
theorem test_decode_setfreq :
    decode (0x02#8 ++ 0#7 ++ 1#1 ++ 440#24 ++ 880#24) = .ok (.setfreq 440 880 1) := by decide

/-- Format M: OP, 32 reserved bits, FM. -/
theorem test_decode_setmod : decode (0x03#8 ++ 0#32 ++ 4401#24) = .ok (.setmod 4401) := by decide

/-- Format N: OP, 32 reserved bits, CMD, NOTE, VEL. -/
theorem test_decode_noteon :
    decode (0x04#8 ++ 0#32 ++ 0x90#8 ++ 69#8 ++ 100#8) = .ok (.noteon 0x90 69 100) := by decide

theorem test_decode_noteoff :
    decode (0x05#8 ++ 0#32 ++ 0x80#8 ++ 60#8 ++ 5#8) = .ok (.noteoff 0x80 60 5) := by decide

/-- Format R: OP, IDX, 16 reserved bits, VAL. -/
theorem test_decode_wrreg :
    decode (0x07#8 ++ 0x03#8 ++ 0#16 ++ 49152#32) = .ok (.wrreg 0x03 49152) := by decide

/-- Format Q: OP, IDX, 48 reserved bits. -/
theorem test_decode_rdreg : decode (0x08#8 ++ 0x10#8 ++ 0#48) = .ok (.rdreg 0x10) := by decide

theorem test_decode_rdnorm : decode (0x0A#8 ++ 50#8 ++ 0#48) = .ok (.rdnorm 50) := by decide

/-- Format W: OP, IDX, 24 reserved bits, VAL. -/
theorem test_decode_wrnorm :
    decode (0x09#8 ++ 50#8 ++ 0#24 ++ 21845#24) = .ok (.wrnorm 50 21845) := by decide

/-- 95_test_vectors 2.1: words the decoder rejects, each by its cause. -/
theorem test_decode_rejects :
    decode 0x0B00000000000000#64 = .error .undefinedOpcode ∧
    decode 0xFFFFFFFFFFFFFFFF#64 = .error .undefinedOpcode ∧
    decode 0x0001000000000000#64 = .error .reservedBits ∧
    decode 0x010C000100009C40#64 = .error .reservedBits ∧
    decode 0x02FE000000000000#64 = .error .reservedBits ∧
    decode 0x0300000001000000#64 = .error .reservedBits ∧
    decode 0x0400000001000000#64 = .error .reservedBits ∧
    decode 0x0700FF0000000000#64 = .error .reservedBits ∧
    decode 0x0800000000000001#64 = .error .reservedBits ∧
    decode 0x0963000001000000#64 = .error .reservedBits := by decide

/-- The table's word of an instruction: 64 bits, bit 0 the least significant. -/
theorem test_decodeTableWord :
    decodeTableWord 64 0x0600000000000000 = some .tick ∧
    decodeTableWord 64 0x0B00000000000000 = none := by decide

/-! ### Well-formedness: one ill-formed term for each check, and the legal ends -/

theorem test_wellFormed_refuses :
    Instr.WellFormed (.init 0 12) = false ∧ Instr.WellFormed (.init 40000 0) = false ∧
    Instr.WellFormed (.init 40000 17) = false ∧ Instr.WellFormed (.wrreg 0x06 0) = false ∧
    Instr.WellFormed (.rdreg 0x14) = false ∧ Instr.WellFormed (.wrnorm 100 0) = false ∧
    Instr.WellFormed (.rdnorm 100) = false := by decide

theorem test_wellFormed_accepts :
    Instr.WellFormed (.init 1 1) = true ∧ Instr.WellFormed (.init 40000 16) = true ∧
    Instr.WellFormed (.wrreg 0x05 0) = true ∧ Instr.WellFormed (.rdreg 0x13) = true ∧
    Instr.WellFormed (.wrnorm 99 0) = true ∧ Instr.WellFormed (.rdnorm 99) = true := by decide

/-! ### One step of each instruction -/

/-- What the state after one step on the given word shows. -/
def seen {α : Type} (f : State → α) (w : Word) (s : State) : Option α :=
  match step (s.withFetchWord 64 w.toNat) with
  | .next t => some (f t)
  | .fault _ => none
  | .refused _ => none

/-- An open gate on note 69, the engine otherwise as at reset. -/
def live : State :=
  (State.reset.setNoteState (noteStateOf true 0x90#8 69#8 100#8)).setActiveNote 69#8

/-- 2.10: NOP leaves everything as it was. -/
theorem test_nop : seen id 0#64 live = some live := by decide

/-- 2.2: INIT 48000, 16 with CAR_ACC preset to 123. -/
theorem test_init :
    seen (fun t => (t.sampleRate, t.dacBits, t.outScale, t.carAcc, t.status))
      0x011000000000BB80#64 (State.reset.setPhase 123#32 0#32) =
      some (48000#32, 16#5, 32767#15, 0#32, 0#16) := by decide

/-- 2.2: INIT 40000, 17 changes STATUS only. -/
theorem test_init_illegal :
    seen (fun t => (t.sampleRate, t.dacBits, t.outScale, t.carAcc, t.status))
      0x0111000000009C40#64 (State.reset.setPhase 123#32 0#32) =
      some (40000#32, 12#5, 2047#15, 123#32, 0x0401#16) := by decide

/-- 2.4: SETFREQ 440, 880, 0 sets MOD_STEP only. -/
theorem test_setfreq_keeps_carrier :
    seen (fun t => (t.carStep, t.modStep, t.carAcc, t.modAcc))
      0x02000001B8000370#64 (State.reset.setPhase 5#32 7#32) =
      some (0#32, 94489280#32, 5#32, 7#32) := by decide

/-- 2.4: SETFREQ 440, 880, 1 sets both steps and resets both accumulators. -/
theorem test_setfreq_resets :
    seen (fun t => (t.carStep, t.modStep, t.carAcc, t.modAcc))
      0x02010001B8000370#64 (State.reset.setPhase 5#32 7#32) =
      some (47244640#32, 94489280#32, 0#32, 0#32) := by decide

/-- 2.4: SETMOD 4401 in fine mode. -/
theorem test_setmod_fine :
    seen (fun t => (t.carStep, t.modStep)) 0x0300000000001131#64
      ((State.reset.setCtrl 8#4).setCarStep 47244640#32) =
      some (47244640#32, 47255377#32) := by decide

/-- 2.9: a retrigger with velocity 0. -/
theorem test_noteon_retrigger :
    seen (fun t => (t.noteState, t.activeNote, t.envMode, t.envLevel, t.envStepcnt))
      0x0400000000904000#64 (live.setEnv .decay 512#17 2#32) =
      some (0x01904000#25, 64#8, EnvMode.attack, 0#17, 0#32) := by decide

/-- 2.9: NOTEOFF of another note leaves the gate open. -/
theorem test_noteoff_other :
    seen (fun t => (t.noteState, t.activeNote)) 0x0500000000803C00#64 live =
      some (0x01803C00#25, 69#8) := by decide

/-- 2.9: NOTEOFF of the latched note closes it. -/
theorem test_noteoff_own :
    seen (fun t => (t.noteState, t.activeNote)) 0x0500000000804500#64 live =
      some (0x00804500#25, 69#8) := by decide

/-- Part 3, P4, tick 6: A = 32768, ci = 64, mi = 0, NORM[50] = 21845, so Yn = 65535 and the code is
4093. -/
theorem test_tick_sample :
    seen (fun t => (t.dacOut, t.lastCode, t.lastA, t.carAcc)) 0x0600000000000000#64
      ((((live.setCtrl 6#4).setShapeIn 32768#32).setPhase 0x40000000#32 0#32).setNorm
        [(50, 21845#24)] |>.setCarStep 1073741824#32) =
      some ([4093#16], 4093#16, 32768#16, 0x80000000#32) := by decide

/-- 2.8, E1, tick 256: the top of Attack changes to Decay and clears the counter; A is then 0. -/
theorem test_tick_envelope :
    seen (fun t => (t.envMode, t.envLevel, t.envStepcnt, t.lastA)) 0x0600000000000000#64
      (live.setEnv .attack 65280#17 255#32) =
      some (EnvMode.decay, 65536#17, 0#32, 0#16) := by decide

/-- 2.10: WRREG SUSTAIN_LEVEL, 0x20000 stores 65536. -/
theorem test_wrreg_clamps :
    seen (fun t => (t.sustainLevel, t.status)) 0x0703000000020000#64 State.reset =
      some (65536#17, 0#16) := by decide

/-- 2.1: WRREG NOTE_STATE raises cause 3. -/
theorem test_wrreg_readonly :
    seen (fun t => (t.noteState, t.status)) 0x0706000000000000#64 State.reset =
      some (0#25, 0x0301#16) := by decide

/-- 2.10: RDREG SAMPLE_RATE at reset responds 40000. -/
theorem test_rdreg :
    seen (fun t => (t.rspOut, t.status)) 0x0808000000000000#64 State.reset =
      some ([40000#32], 0#16) := by decide

/-- 2.1: RDREG 0x14 responds 0, once, and raises cause 3. -/
theorem test_rdreg_undefined :
    seen (fun t => (t.rspOut, t.status)) 0x0814000000000000#64 State.reset =
      some ([0#32], 0x0301#16) := by decide

/-- 2.10: WRNORM 99, 32768; writing the reset value back lists nothing. -/
theorem test_wrnorm :
    seen State.norm 0x0963000000008000#64 State.reset = some [(99, 32768#24)] ∧
    seen State.norm 0x0963000000010000#64 (State.reset.setNorm [(99, 32768#24)]) = some [] := by
  decide

/-- 2.1: WRNORM 100 raises cause 5. -/
theorem test_wrnorm_illegal :
    seen (fun t => (t.norm, t.status)) 0x0964000000000000#64 State.reset =
      some ([], 0x0501#16) := by decide

/-- 2.10: RDNORM 5 at reset responds 65536. -/
theorem test_rdnorm :
    seen (fun t => (t.rspOut, t.status)) 0x0A05000000000000#64 State.reset =
      some ([65536#32], 0#16) := by decide

/-- 2.1: RDNORM 100 responds 0 and raises cause 5. -/
theorem test_rdnorm_illegal :
    seen (fun t => (t.rspOut, t.status)) 0x0A64000000000000#64 State.reset =
      some ([0#32], 0x0501#16) := by decide

/-- R302 and R303: opcode 0xFF records cause 1; R303's first example records cause 2. -/
theorem test_illegal_words :
    seen State.status 0xFF00000000000000#64 State.reset = some 0x0101#16 ∧
    seen State.status 0x0700FF0000000000#64 State.reset = some 0x0201#16 := by decide

set_option maxRecDepth 8000 in
/-- The checks of R72 (20_memory) on the sine ROM's table. -/
theorem test_sine_rom :
    sineTable.length = 256 ∧ sineTable.sum = 0 ∧ sine 64#8 = 65536 ∧ sine 192#8 = -65536 ∧
    sineTable.drop 128 = (sineTable.take 128).map (fun v => -v) ∧
    (sineTable.take 65).reverse = (sineTable.drop 64).take 65 := by decide

/-- A line of the assembler, with a register's name, a hexadecimal number and a comment (R116). -/
theorem test_assembler_line :
    asmWords ['W', 'R', 'R', 'E', 'G', ' ', 'C', 'T', 'R', 'L', ',', ' ', '0', 'x', 'F', 'F', ' ',
      ';', ' ', 'x'] = some [0x07000000000000FF#64] ∧
    asmWords ['T', 'I', 'C', 'K', 'N', ' ', '2'] =
      some [0x0600000000000000#64, 0x0600000000000000#64] ∧
    asmWords ['S', 'T', 'O', 'P', ' ', '2', '5', '6'] = none := by decide

/-! ### Witnesses: the hypotheses of the obligations are met -/

theorem test_witness_encodeOfDecode : decode 0x0705000000000001#64 = .ok (.wrreg 5 1) := by decide

theorem test_witness_undefinedOpcode :
    0x0B ≤ (opcodeByte 0x0B00000000000000#64).toNat ∧
    0x0B ≤ (opcodeByte 0xFFFFFFFFFFFFFFFF#64).toNat := by decide

theorem test_witness_reservedBit :
    (opcodeByte 0x0600000000000001#64 = Opcode.byte .tick ∧
      (Opcode.format .tick).reservedMask.getLsbD 0 = true ∧
      BitVec.getLsbD 0x0600000000000001#64 0 = true) ∧
    opcodeByte 0x0280000000000000#64 = Opcode.byte .setfreq ∧
      (Opcode.format .setfreq).reservedMask.getLsbD 55 = true ∧
      BitVec.getLsbD 0x0280000000000000#64 55 = true := by decide

/-- 2.1, at the ends of every range. -/
theorem test_witness_causes :
    wordCause 0x0B00000000000000#64 = some .undefinedOpcode ∧
    wordCause 0x0600000000000001#64 = some .reservedBits ∧
    wordCause 0x0714000000000000#64 = some .badRegister ∧
    wordCause 0x0706000000000000#64 = some .badRegister ∧
    wordCause 0x0705000000000000#64 = none ∧
    wordCause 0x0814000000000000#64 = some .badRegister ∧
    wordCause 0x0813000000000000#64 = none ∧
    wordCause 0x0100000000009C40#64 = some .badInitOperand ∧
    wordCause 0x0111000000009C40#64 = some .badInitOperand ∧
    wordCause 0x010C000000000000#64 = some .badInitOperand ∧
    wordCause 0x0101000000000001#64 = none ∧ wordCause 0x011000000000BB80#64 = none ∧
    wordCause 0x0964000000000000#64 = some .badNormIndex ∧
    wordCause 0x0963000000000000#64 = none ∧
    wordCause 0x0A64000000000000#64 = some .badNormIndex ∧
    wordCause 0x0A63000000000000#64 = none := by decide

/-- R116: the ends of the fields, and one past each. -/
theorem test_witness_assembler :
    assemble .init [.num 4294967295, .num 255] = some [.init 4294967295 255] ∧
    assemble .init [.num 4294967296, .num 255] = none ∧
    assemble .init [.num 4294967295, .num 256] = none ∧
    assemble .setfreq [.num 16777215, .num 16777216, .num 1] = none ∧
    assemble .setfreq [.num 440, .num 880, .num 2] = none ∧
    assemble .setmod [.num 16777215] = some [.setmod 16777215] ∧
    assemble .noteon [.num 255, .num 255, .num 256] = none ∧
    assemble .noteoff [.num 0x80, .num 69, .num 0] = some [.noteoff 0x80 69 0] ∧
    assemble .wrreg [.reg .lastA, .num 4294967295] = some [.wrreg 0x13 4294967295] ∧
    assemble .rdreg [.num 256] = none ∧ assemble .wrnorm [.num 99, .num 16777216] = none ∧
    assemble .rdnorm [.num 255] = some [.rdnorm 255] := by decide

theorem test_witness_stepRuns :
    ((State.reset.setInput [0#64] [] [.word .control]).arrivals = [.word .control] ∧
      (State.reset.setInput [0#64] [] [.word .control]).control = [0#64]) ∧
    ((State.reset.setInput [] [0xFF00000000000000#64] [.word .ticker]).arrivals = [.word .ticker] ∧
      (State.reset.setInput [] [0xFF00000000000000#64] [.word .ticker]).ticker =
        [0xFF00000000000000#64]) ∧
    decode 0#64 = .ok .nop ∧ decode 0xFF00000000000000#64 = .error .undefinedOpcode := by decide

theorem test_witness_idle :
    State.reset.arrivals = [] ∧
    (State.reset.setInput [] [] [.word .control]).control = [] ∧
    (State.reset.setInput [] [] [.word .ticker]).ticker = [] := by decide

theorem test_witness_reset :
    (live.setInput [0#64] [] [.reset none]).arrivals = [.reset none] ∧
    (live.setInput [0#64] [] [.reset (some .control)]).arrivals = [.reset (some .control)] := by
  decide

/-- A run of two arrivals, the first of CONTROL, the second of an agent with nothing to send. -/
theorem test_witness_port :
    (∀ e ∈ (State.reset.setInput [0x0700000000000002#64] []
      [.word .control, .word .ticker]).arrivals, ∃ a, e = PortEvent.word a) ∧
    Host.Core.run core 2
      (State.reset.setInput [0x0700000000000002#64] [] [.word .control, .word .ticker]) =
      .next (State.reset.setCtrl 2#4) ∧
    IsMerge [0#64] [1#64] [1#64, 0#64] :=
  ⟨fun e he => by
    simp only [State.setInput, List.mem_cons, List.not_mem_nil, or_false] at he
    rcases he with rfl | rfl <;> exact ⟨_, rfl⟩, rfl, .ticker 1#64 (.control 0#64 .done)⟩

/-- The ends of the ranges of R72's checks. -/
theorem test_witness_sineRanges :
    (0#8).toNat < 128 ∧ (127#8).toNat < 128 ∧ ¬ (128#8).toNat < 128 ∧
    (0#8).toNat ≤ 64 ∧ (64#8).toNat ≤ 64 ∧ ¬ (65#8).toNat ≤ 64 := by decide

theorem test_witness_init :
    (1 ≤ (1#32).toNat ∧ 1 ≤ (1#8).toNat ∧ (1#8).toNat ≤ 16) ∧
    (1 ≤ (4294967295#32).toNat ∧ 1 ≤ (16#8).toNat ∧ (16#8).toNat ≤ 16) ∧
    ¬ (1 ≤ (0#32).toNat ∧ 1 ≤ (12#8).toNat ∧ (12#8).toNat ≤ 16) ∧
    ¬ (1 ≤ (1#32).toNat ∧ 1 ≤ (0#8).toNat ∧ (0#8).toNat ≤ 16) ∧
    ¬ (1 ≤ (1#32).toNat ∧ 1 ≤ (17#8).toNat ∧ (17#8).toNat ≤ 16) := by decide

/-- The rate at its lowest, in each mode, with the divisor D; f below D; and the rule's own state. -/
theorem test_witness_rate :
    (1 ≤ (State.reset.setFormat 1#32 12#5 2047#15).sampleRate.toNat ∧
      1 = (State.reset.setFormat 1#32 12#5 2047#15).sampleRate.toNat *
        (if (State.reset.setFormat 1#32 12#5 2047#15).ctrl.getLsbD 3 then 10 else 1)) ∧
    400000 = (State.reset.setCtrl 8#4).sampleRate.toNat *
      (if (State.reset.setCtrl 8#4).ctrl.getLsbD 3 then 10 else 1) ∧
    (440#24).toNat < 40000 ∧ (4400#24).toNat = 10 * (440#24).toNat ∧
    State.reset.sampleRate = 40000#32 ∧ State.reset.ctrl.getLsbD 3 = false := by decide

theorem test_witness_notes :
    69#8 = live.activeNote ∧ 60#8 ≠ live.activeNote ∧ live.noteState.getLsbD 24 = true ∧
    State.reset.noteState.getLsbD 24 = false := by decide

theorem test_witness_registers :
    0x06 ≤ (0x06#8).toNat ∧ 0x06 ≤ (0xFF#8).toNat ∧ (0x13#8).toNat ≤ 0x13 ∧
    0x14 ≤ (0x14#8).toNat ∧ (1#32).getLsbD 0 = true ∧ (0xFFFFFFFE#32).getLsbD 0 = false ∧
    (99#8).toNat ≤ 99 ∧ 99 < (100#8).toNat := by decide

/-- The signs of S, A = 0, a bit of CTRL each way, and the factors of R187's cases. -/
theorem test_witness_datapath :
    0 < sine 64#8 ∧ sine 192#8 < 0 ∧ sine 0#8 = 0 ∧ cosine 0#8 = 65536 ∧
    (State.reset.setCtrl 4#4).ctrl.getLsbD 2 = true ∧ State.reset.ctrl.getLsbD 2 = false ∧
    State.reset.norm.read 50 = 65536#24 ∧
    (State.reset.setNorm [(50, 0#24)]).norm.read 50 = 0#24 ∧
    (State.reset.setNorm [(50, 21845#24)]).norm.read (32768 * 100 / 65536) = 21845#24 ∧
    |(8589869056 : Int)| < 2 ^ 33 ∧ |(2199006347265 : Int)| < 2 ^ 41 ∧
    (live.setPhase 0xFF000000#32 0#32 |>.setCarStep 0x01000000#32).noteState.getLsbD 24 = true := by
  decide

/-- An active state with the values that the statement on TICK names, all together. -/
theorem test_witness_activeTick :
    ∃ (e : State) (a : BitVec 16) (x sin cos y yn code : Int),
      live.noteState.getLsbD 24 = true ∧ e = envStep Config.env live ∧
      x = (if live.ctrl.getLsbD 1 then live.shapeIn.toInt
        else if live.ctrl.getLsbD 0 then (e.envLevel.toNat : Int)
        else 65536 - (e.envLevel.toNat : Int)) ∧
      (a.toNat : Int) = max 0 (min x 65535) ∧
      sin = sine (BitVec.ofNat 8 (live.carAcc.toNat / 2 ^ 24)) ∧
      cos = sine (BitVec.ofNat 8 ((live.modAcc.toNat / 2 ^ 24 + 64) % 256)) ∧
      y = Int.tdiv ((2 ^ 32 - (a.toNat : Int) ^ 2) * sin)
        (2 ^ 32 + (a.toNat : Int) ^ 2 - 2 * a.toNat * cos) ∧
      yn = (if live.ctrl.getLsbD 2
        then Int.tdiv (y * (live.norm.read (a.toNat * 100 / 65536)).toNat) 65536 else y) ∧
      code = Int.tdiv (yn * live.outScale.toNat) 65536 + live.outScale.toNat :=
  ⟨_, shapeA (envStep Config.env live), _, _, _, _, _, _, rfl, rfl, rfl, by decide, rfl, rfl, rfl,
    rfl, rfl⟩

/-- The engine's invariants hold of a state in which a note sounds, in each mode. -/
theorem test_witness_inv :
    EngineInv live ∧ EngineInv (live.setEnv .decay 65536#17 0#32) ∧
    EngineInv (live.setEnv .sustain 0#17 0#32) ∧ |(65536 : Int)| ≤ 65536 :=
  ⟨by constructor <;> decide, by constructor <;> decide, by constructor <;> decide, by decide⟩

/-- A step from a state with the invariants. -/
theorem test_witness_stepInv :
    EngineInv (live.setInput [0#64] [] [.word .control]) ∧
    step (live.setInput [0#64] [] [.word .control]) = .next live :=
  ⟨by constructor <;> decide, rfl⟩

/-- The top of Attack, and a step below it, with the parameters of R14. -/
theorem test_witness_attack :
    Config.env.Legal ∧ (live.setEnv .attack 65280#17 255#32).envMode = .attack ∧
    1 = max (live.setEnv .attack 65280#17 255#32).attackRate.toNat 1 ∧
    65536 = (if (live.setEnv .attack 65280#17 255#32).envStepcnt.toNat % 1 = 0
      then min ((live.setEnv .attack 65280#17 255#32).envLevel.toNat + Config.env.step)
        Config.env.max else (live.setEnv .attack 65280#17 255#32).envLevel.toNat) ∧
    256 = (if live.envStepcnt.toNat % 1 = 0
      then min (live.envLevel.toNat + Config.env.step) Config.env.max
      else live.envLevel.toNat) := by decide

/-- The end of Decay, and a step above it. -/
theorem test_witness_decay :
    Config.env.Legal ∧ (live.setEnv .decay 256#17 0#32).envMode = .decay ∧
    1 = max (live.setEnv .decay 256#17 0#32).decayRate.toNat 1 ∧
    (0 : Int) = (if (live.setEnv .decay 256#17 0#32).envStepcnt.toNat % 1 = 0
      then max (((live.setEnv .decay 256#17 0#32).envLevel.toNat : Int) - Config.env.step) 0
      else (live.setEnv .decay 256#17 0#32).envLevel.toNat) ∧
    (256 : Int) = (if (live.setEnv .decay 512#17 0#32).envStepcnt.toNat % 1 = 0
      then max (((live.setEnv .decay 512#17 0#32).envLevel.toNat : Int) - Config.env.step) 0
      else (live.setEnv .decay 512#17 0#32).envLevel.toNat) := by decide

/-- Both ends of the admitted parameters; the levels on either side of each change of mode. -/
theorem test_witness_envelope :
    Config.EnvParams.Legal ⟨1, 1⟩ ∧ Config.EnvParams.Legal ⟨65536, 65536⟩ ∧
    (live.setEnv .attack 65280#17 255#32).envMode = .attack ∧
    65536 ≤ min ((65280#17).toNat + 256) 65536 ∧ min ((65024#17).toNat + 256) 65536 < 65536 ∧
    (live.setEnv .decay 256#17 0#32).envMode = .decay ∧
    max (((256#17).toNat : Int) - 256) 0 ≤ ((0#17).toNat : Int) ∧
    ((0#17).toNat : Int) < max (((512#17).toNat : Int) - 256) 0 := by decide

theorem test_witness_modes :
    (live.setEnv .sustain 0#17 0#32).active = true ∧
    (live.setEnv .sustain 0#17 0#32).envMode = .sustain ∧ live.envMode ≠ .release ∧
    (live.setEnv .release 0#17 0#32).envMode = .release ∧
    opcodeByte 0x0600000000000000#64 ≠ 0x04#8 := by decide

theorem test_witness_shape :
    live.envLevel.toNat ≤ 65536 ∧ (live.setEnv .decay 65536#17 0#32).envLevel.toNat ≤ 65536 ∧
    (live.setCtrl 2#4).ctrl.getLsbD 1 = true ∧ (live.setCtrl 1#4).ctrl.getLsbD 1 = false ∧
    (live.setCtrl 1#4).ctrl.getLsbD 0 = true ∧ live.ctrl.getLsbD 1 = false ∧
    live.ctrl.getLsbD 0 = false := by decide

/-- The top of the envelope as 2.8, E6 has it: DECAY_RATE 3 and SUSTAIN_LEVEL 40000. -/
def top : State :=
  ((live.setDecayRate 3#16).setSustainLevel 40000#17).setEnv .decay 65536#17 0#32

/-- 2.8: E6, where j is 100, and E8, where it is 1. -/
theorem test_witness_lengths :
    1 = max live.attackRate.toNat 1 ∧ 1 = max (live.setAttackRate 0#16).attackRate.toNat 1 ∧
    (top.active = true ∧ top.envMode = .decay ∧ top.envLevel = 65536#17 ∧
      top.envStepcnt = 0#32 ∧ 3 = max top.decayRate.toNat 1 ∧ 40000 = top.sustainLevel.toNat ∧
      40000 ≤ 65536 ∧ 100 = max 1 ((65536 - 40000 + 255) / 256)) ∧
    65536 = (top.setSustainLevel 65536#17).sustainLevel.toNat ∧
    1 = max 1 ((65536 - 65536 + 255) / 256) := by
  refine ⟨?_, ?_, ⟨?_, ?_, ?_, ?_, ?_, ?_, ?_, ?_⟩, ?_, ?_⟩ <;> decide

/-- Words of which none is NOTEON's, and an illegal read. -/
theorem test_witness_words :
    (∀ w ∈ [0x0600000000000000#64, 0xFF00000000000000#64], opcodeByte w ≠ 0x04#8) ∧
    wordCause 0x0814000000000000#64 = some .badRegister ∧
    opcodeByte 0x0814000000000000#64 = 0x08#8 := by
  refine ⟨fun w hw => ?_, by decide, by decide⟩
  simp only [List.mem_cons, List.not_mem_nil, or_false] at hw
  rcases hw with rfl | rfl <;> decide

/-- A word changes a register, and WRNORM changes an entry. -/
theorem test_witness_writes :
    seen (fun t => decide (readReg .ctrl t = readReg .ctrl live)) 0x0700000000000002#64 live =
      some false ∧
    seen (fun t => decide (t.norm.read 99 = live.norm.read 99)) 0x0963000000008000#64 live =
      some false := by decide

/-- Two states alike in all that is heard, though not equal. -/
theorem test_witness_sameSound :
    SameSound live (live.setLastA 5#16) ∧ live ≠ live.setLastA 5#16 := by
  refine ⟨⟨fun r hr => ?_, by decide, fun k => rfl, by decide⟩, by decide⟩
  cases r <;> first | rfl | (exact absurd hr (by decide))

end Sys2Proof.Machine
end

section
/-! PROOFS. NUM and DEN of R182 (42_sample_datapath), and the symmetries of the sine ROM (R72, R73,
20_memory) that carry its first quarter to every index. -/

namespace Sys2Proof.Machine

/-- 1 - a², in Q32, is positive and at most 1.0, because A stays below 65536 (R180, R182). -/
theorem one_sub_sq_bound (a : BitVec 16) :
    0 < 2 ^ 32 - (a.toNat : Int) * a.toNat ∧ 2 ^ 32 - (a.toNat : Int) * a.toNat ≤ 2 ^ 32 := by
  have hlt : a.toNat < 65536 := a.isLt
  constructor <;> nlinarith

/-- NUM of any S within 1.0. -/
theorem abs_dsfNum_le (a : BitVec 16) {s : Int} (hs : |s| ≤ 65536) : |dsfNum a s| ≤ 2 ^ 48 := by
  obtain ⟨hpos, hle⟩ := one_sub_sq_bound a
  calc |dsfNum a s| = (2 ^ 32 - (a.toNat : Int) * a.toNat) * |s| := by
        rw [dsfNum, abs_mul, abs_of_pos hpos]
    _ ≤ 2 ^ 32 * 65536 := mul_le_mul hle hs (abs_nonneg s) (by norm_num)
    _ = 2 ^ 48 := by norm_num

/-- DEN as a square and a term that vanishes where C is 1.0 (R184). -/
theorem dsfDen_eq_sq_add (a : BitVec 16) (c : Int) :
    dsfDen a c = (65536 - (a.toNat : Int)) ^ 2 + 2 * a.toNat * (65536 - c) := by
  rw [dsfDen]; ring

/-- The lower bound of R184, for any C up to 1.0. -/
theorem sq_le_dsfDen (a : BitVec 16) {c : Int} (hc : c ≤ 65536) :
    (65536 - (a.toNat : Int)) ^ 2 ≤ dsfDen a c := by
  have hterm : 0 ≤ 2 * (a.toNat : Int) * (65536 - c) := mul_nonneg (by omega) (by omega)
  rw [dsfDen_eq_sq_add]; omega

/-- The square that bounds DEN from below is itself at least 1. -/
theorem one_le_one_sub_sq (a : BitVec 16) : 1 ≤ (65536 - (a.toNat : Int)) ^ 2 :=
  one_le_pow₀ (by have hlt : a.toNat < 65536 := a.isLt; omega)

theorem one_le_dsfDen (a : BitVec 16) {c : Int} (hc : c ≤ 65536) : 1 ≤ dsfDen a c :=
  (one_le_one_sub_sq a).trans (sq_le_dsfDen a hc)

/-- DEN is largest at the largest A and C = -1.0 (R182). -/
theorem dsfDen_le (a : BitVec 16) {c : Int} (hc : -65536 ≤ c) :
    dsfDen a c ≤ 2 ^ 32 + 65535 ^ 2 + 2 * 65535 * 65536 := by
  have hlt : a.toNat < 65536 := a.isLt
  have ha : (a.toNat : Int) ≤ 65535 := by omega
  have hsq : (a.toNat : Int) * a.toNat ≤ 65535 * 65535 := mul_le_mul ha ha (by omega) (by norm_num)
  have hcos : (a.toNat : Int) * -c ≤ 65535 * 65536 :=
    (mul_le_mul_of_nonneg_left (by omega) (by omega)).trans
      (mul_le_mul_of_nonneg_right ha (by norm_num))
  rw [dsfDen]; linarith

theorem abs_sine_le (i : BitVec 8) : |sine i| ≤ 65536 := abs_le.mpr (sine_bound i)

theorem abs_cosine_le (i : BitVec 8) : |cosine i| ≤ 65536 := abs_sine_le _

set_option maxRecDepth 8000 in
/-- R72's first check: half a turn on, the sine is negated. -/
theorem sine_half_turn {i : BitVec 8} (hi : i.toNat < 128) : sine (128#8 + i) = -sine i := by
  have h : ∀ n : Fin 128, sine (128#8 + BitVec.ofNat 8 n) = -sine (BitVec.ofNat 8 n) := by decide
  simpa using h ⟨i.toNat, hi⟩

set_option maxRecDepth 8000 in
/-- R72's second check: the half wave is symmetric about its peak. -/
theorem sine_mirror {i : BitVec 8} (hi : i.toNat ≤ 64) : sine (64#8 - i) = sine (64#8 + i) := by
  have h : ∀ n : Fin 65, sine (64#8 - BitVec.ofNat 8 n) = sine (64#8 + BitVec.ofNat 8 n) := by
    decide
  simpa using h ⟨i.toNat, by omega⟩

set_option maxRecDepth 8000 in
@[simp] theorem sineTable_length : sineTable.length = 256 := by decide

set_option maxRecDepth 8000 in
/-- R72's checksum. -/
@[simp] theorem sineTable_sum : sineTable.sum = 0 := by decide

/-- The entries read in the order of their indices are the table. -/
theorem map_sine_range : (List.range 256).map (fun k => sine (BitVec.ofNat 8 k)) = sineTable := by
  refine List.ext_getElem (by simp) fun k hk hk' => ?_
  have hlt : k < 256 := by simpa using hk
  simp [sine, Nat.mod_eq_of_lt hlt, List.getElem?_eq_getElem hk']

/-- The cosine's place, counted modulo 256 (R73). -/
theorem cosine_eq_sine_mod (i : BitVec 8) :
    cosine i = sine (BitVec.ofNat 8 ((i.toNat + 64) % 256)) := by
  rw [cosine]
  congr 1
  exact BitVec.eq_of_toNat_eq (by simp)

/-- Settles O35: DEN is (65536 - A)² and a nonnegative term, so it is positive wherever C is at most
1.0, and the sine table's bounds give the rest. -/
theorem numeratorAndDenominatorBounds : Obligations.NumeratorAndDenominatorBounds := by
  refine ⟨fun a ci mi => ?bounds, ?rows, by decide, by decide, by decide, by decide,
    fun _ => sine_half_turn, fun _ => sine_mirror, ?checksum,
    fun i => ⟨cosine_eq_sine_mod i, abs_cosine_le i⟩, by decide, by decide, by decide, by decide⟩
  case bounds =>
    obtain ⟨hpos, hle⟩ := one_sub_sq_bound a
    obtain ⟨hlow, hhigh⟩ := cosine_bound mi
    have hden := dsfDen_le a hlow
    exact ⟨rfl, rfl, hpos, hle, abs_dsfNum_le a (abs_sine_le ci), one_le_dsfDen a hhigh, hden,
      hden.trans_lt (by norm_num)⟩
  case rows => decide
  case checksum => rw [map_sine_range, sineTable_sum]

end Sys2Proof.Machine
end

section
/-! PROOFS. A word the decoder rejects raises the decoder's cause (R111, R112, 30_encoding), and the
worked encodings of R118. -/

namespace Sys2Proof

/-- A byte of 0x0B or more is rejected before any other bit is read (R112). -/
theorem decode_undefinedOpcode {w : Word} (h : 0x0B ≤ (opcodeByte w).toNat) :
    decode w = .error .undefinedOpcode := by
  simp only [decode, Opcode.ofByte_none h]

/-- One reserved bit is enough to reject a word with a defined opcode (R111). -/
theorem decode_reservedBit {op : Opcode} {w : Word} {k : Nat} (hop : opcodeByte w = op.byte)
    (hm : op.format.reservedMask.getLsbD k = true) (hw : w.getLsbD k = true) :
    decode w = .error .reservedBits := by
  rw [decode_opcode hop, if_neg (and_ne_zero hm hw)]

/-- The decoder's cause is the word's: no operand check comes before it (R303). -/
theorem wordCause_of_decode_error {w : Word} {c : Cause} (h : decode w = .error c) :
    wordCause w = some c := by
  simp only [wordCause, h]

end Sys2Proof

namespace Sys2Proof.Machine

/-- The read opcodes by their bytes (R110, R276). -/
theorem isReadOpcode_iff {b : BitVec 8} : isReadOpcode b = true ↔ b = 0x08#8 ∨ b = 0x0A#8 := by
  rw [isReadOpcode, Bool.or_eq_true, decide_eq_true_iff, decide_eq_true_iff]
  exact Iff.rfl

/-- An illegal word is one raise of its cause, seen from outside: STATUS reads the code, a read
opcode gets its 0, and all else is kept (R301). -/
theorem raises_of_wordCause {w : Word} {c : Cause} (s : State) (h : wordCause w = some c) :
    Raises w c.code.toNat s := by
  obtain ⟨hill, hcause⟩ := raiseIllegal_record (opcodeByte w) c s
  have hregs : KeepsRegs [.status] s (raiseIllegal (opcodeByte w) c s) :=
    fun r hr => readReg_raiseIllegal s _ c (by simpa using hr)
  have hinputs : KeepsInputs s (raiseIllegal (opcodeByte w) c s) := by simp [KeepsInputs]
  exact ⟨_, runWord_illegal s h, readReg_status_raiseIllegal _ c s, hill, congrArg _ hcause, hregs,
    fun k => by rw [raiseIllegal_norm], raiseIllegal_dacOut s _ c, hinputs,
    by simp only [raiseIllegal_rspOut, isReadOpcode_iff]⟩

/-- Settles O4: no opcode has such a byte, so the decoder rejects the word with cause 1. -/
theorem undefinedOpcodeRaisesCauseOne : Obligations.UndefinedOpcodeRaisesCauseOne :=
  fun _ s h => raises_of_wordCause s (wordCause_of_decode_error (decode_undefinedOpcode h))

/-- Settles O5: the word meets its format's mask in the set bit, so the decoder rejects it with
cause 2. -/
theorem reservedBitRaisesCauseTwo : Obligations.ReservedBitRaisesCauseTwo :=
  fun _ _ _ s hop hm hw =>
    raises_of_wordCause s (wordCause_of_decode_error (decode_reservedBit hop hm hw))

/-- Settles O3: the decoder and the encoder, run on each of the twelve worked pairs. -/
theorem workedWordsDecode : Obligations.WorkedWordsDecode := by
  unfold Obligations.WorkedWordsDecode
  decide

end Sys2Proof.Machine
end

section
/-! PROOFS. The operand check of INIT (R142, 40_init): what it lets through, and what a refused
operand raises. -/

namespace Sys2Proof.Machine

variable {sr : BitVec 32} {db : BitVec 8}

/-- The operand check in R142's numbers. -/
theorem initLegal_iff :
    initLegal sr db = true ↔ 1 ≤ sr.toNat ∧ 1 ≤ db.toNat ∧ db.toNat ≤ 16 := by
  simp [initLegal]

/-- An INIT that passes the check takes its effect (R140, R143). -/
theorem exec_init_of_legal (s : State) (h : initLegal sr db = true) :
    exec (.init sr db) s =
      .next ((s.setFormat sr (db.setWidth 5) (outScaleOf db)).setPhase 0#32 0#32) := by
  simp only [exec, execInit, if_pos h]

/-- An INIT that fails the check is illegal with cause 4 (R142, R302). -/
theorem operandCause_init_of_not_legal (h : ¬ initLegal sr db = true) :
    (Instr.init sr db).operandCause = some .badInitOperand := by
  rw [Instr.operandCause, if_neg (by simpa only [Instr.WellFormed, initLegal] using h)]

/-- Settles O18: past the check INIT's writes keep STATUS, and short of it INIT is one raise of
cause 4, which writes STATUS alone because INIT reads nothing. -/
theorem initOperandsAreChecked : Obligations.InitOperandsAreChecked := by
  intro sr db s
  by_cases h : initLegal sr db = true
  · have hrange := initLegal_iff.mp h
    exact ⟨_, exec_init_of_legal s h, fun hout => absurd hrange hout, fun _ => by simp⟩
  · have hout := mt initLegal_iff.mpr h
    obtain ⟨hill, hcause⟩ := raiseIllegal_record (Opcode.byte .init) .badInitOperand s
    have honly : WritesOnly [.status] s (raiseIllegal (Opcode.byte .init) .badInitOperand s) :=
      raiseIllegal_writesOnly .badInitOperand s (by decide)
    exact ⟨_, exec_illegal s (operandCause_init_of_not_legal h),
      fun _ => ⟨hill, hcause, honly⟩, fun hrange => absurd hrange hout⟩

end Sys2Proof.Machine
end

section
/-! PROOFS. The phase step (R160, R163, 41_frequency): its divisor, the quotient modulo 2^32 and
the aliasing of a frequency at or above the sample rate. -/

namespace Sys2Proof.Machine

variable {s : State}

/-- The divisor D in R160's numbers. -/
theorem phaseDivisor_eq (s : State) :
    phaseDivisor s = s.sampleRate.toNat * (if s.ctrl.getLsbD 3 then 10 else 1) := rfl

/-- D is not 0 where the rate is not, and ten times a 32-bit rate fits 36 bits (R160). -/
theorem phaseDivisor_bounds (h : 1 ≤ s.sampleRate.toNat) :
    1 ≤ phaseDivisor s ∧ phaseDivisor s < 2 ^ 36 := by
  have hrate := s.sampleRate.isLt
  rw [phaseDivisor_eq]
  split <;> omega

/-- The phase step as a number: the quotient rounded down, modulo 2^32 (R160). -/
theorem toNat_phaseStep (f : BitVec 24) (h : 1 ≤ s.sampleRate.toNat) :
    (phaseStep f s).toNat = f.toNat * 2 ^ 32 / phaseDivisor s % 2 ^ 32 := by
  have hrate : s.sampleRate ≠ 0#32 := by
    intro h0
    simp [h0] at h
  rw [phaseStep_eq f hrate, BitVec.toNat_ofNat]

/-- Reducing the quotient modulo `m` is reducing the frequency modulo the divisor: whole multiples
of `d` add whole multiples of `m` to the quotient. -/
theorem mul_div_mod_eq_mod_mul_div (f m d : Nat) : f * m / d % m = f % d * m / d := by
  rw [← Nat.mod_mul_right_div_self, Nat.mul_mod_mul_right]

/-- A frequency aliases to its remainder by D (R160, R164). -/
theorem toNat_phaseStep_alias (f : BitVec 24) (h : 1 ≤ s.sampleRate.toNat) :
    (phaseStep f s).toNat = f.toNat % phaseDivisor s * 2 ^ 32 / phaseDivisor s := by
  rw [toNat_phaseStep f h, mul_div_mod_eq_mod_mul_div]

/-- The four examples of R160, at rate 40000 in coarse mode. -/
theorem phaseStep_examples (hrate : s.sampleRate = 40000#32) (hfine : s.ctrl.getLsbD 3 = false) :
    phaseStep 440#24 s = 47244640#32 ∧ phaseStep 20000#24 s = 0x80000000#32 ∧
      phaseStep 40000#24 s = 0#32 ∧ phaseStep 1#24 s = 107374#32 := by
  have hne : s.sampleRate ≠ 0#32 := by rw [hrate]; decide
  have hdiv : phaseDivisor s = 40000 := by rw [phaseDivisor_eq, hrate, hfine]; rfl
  simp only [phaseStep_eq _ hne, hdiv]
  decide

/-- Settles O19: the wrap is the aliasing, and a frequency below D is its own remainder, so its
quotient needs no wrap. -/
theorem phaseStepIsTheWrappedQuotient : Obligations.PhaseStepIsTheWrappedQuotient := by
  refine ⟨fun f s d h hd => ?_, fun s => phaseStep_examples⟩
  obtain rfl : d = phaseDivisor s := hd.trans (phaseDivisor_eq s).symm
  obtain ⟨hpos, hlt⟩ := phaseDivisor_bounds h
  have hf : f.toNat * 2 ^ 32 < 2 ^ 56 := by have := f.isLt; omega
  have halias := toNat_phaseStep_alias f h
  refine ⟨hpos, hlt, hf, toNat_phaseStep f h, fun hbelow => ?_, halias⟩
  rw [halias, Nat.mod_eq_of_lt hbelow]

end Sys2Proof.Machine
end

section
/-! PROOFS. The clamp of the shape parameter (R180, 42_sample_datapath). -/

namespace Sys2Proof.Machine

/-- The clamp as a number. -/
theorem toNat_clampA (x : Int) : ((clampA x).toNat : Int) = max 0 (min x 65535) := by
  have hofInt : ((BitVec.ofInt 16 (max 0 (min x 65535))).toNat : Int) = max 0 (min x 65535) := by
    rw [BitVec.toNat_ofInt]; omega
  rw [clampA_eq hofInt, hofInt]

theorem clampA_of_nonpos {x : Int} (h : x ≤ 0) : clampA x = 0#16 :=
  clampA_eq (by rw [BitVec.toNat_zero]; omega)

theorem clampA_of_ge {x : Int} (h : 65535 ≤ x) : clampA x = 65535#16 :=
  clampA_eq (by rw [BitVec.toNat_ofNat]; omega)

/-- A value that is an A already is kept. -/
theorem clampA_toNat (a : BitVec 16) : clampA (a.toNat : Int) = a :=
  clampA_eq (by have hlt : a.toNat < 65536 := a.isLt; omega)

/-- Settles O34: the clamp is `max 0 (min x 65535)`, so it is constant beyond each end and keeps
every A. -/
theorem clampKeepsTheHalfOpenRange : Obligations.ClampKeepsTheHalfOpenRange := by
  refine ⟨fun x h => clampA_of_nonpos h.le, fun x h => ?top, fun x hlo hhi => ?kept,
    fun x => Nat.le_of_lt_succ (clampA x).isLt, fun x => clampA_toNat _,
    fun x h => (clampA_of_ge h).trans (clampA_of_ge le_rfl).symm,
    fun x h => (clampA_of_nonpos h.le).trans (clampA_of_nonpos le_rfl).symm,
    by decide, by decide, by decide, by decide⟩
  case top => rw [clampA_of_ge (by omega)]; rfl
  case kept => rw [toNat_clampA]; omega

end Sys2Proof.Machine
end

section
/-! PROOFS. Where DEN is smallest (R184), and the DSF quotient: its sign, its zeros and its peak
(R183, R185, 42_sample_datapath). -/

namespace Sys2Proof.Machine

/-- DEN is smallest where its square is 1 and its other term 0: at the largest A and C = 1.0. -/
theorem dsfDen_eq_one_iff (a : BitVec 16) {c : Int} (hc : c ≤ 65536) :
    dsfDen a c = 1 ↔ a.toNat = 65535 ∧ c = 65536 := by
  have hlt : a.toNat < 65536 := a.isLt
  constructor
  · intro h
    have hsq : (65536 - (a.toNat : Int)) ^ 2 ≤ 1 := h ▸ sq_le_dsfDen a hc
    have ha : a.toNat = 65535 := by
      have hroot : 65536 - (a.toNat : Int) ≤ 1 := (sq_le_one_iff₀ (by omega)).mp hsq
      omega
    rw [dsfDen_eq_sq_add, ha] at h
    exact ⟨ha, by omega⟩
  · rintro ⟨ha, rfl⟩
    rw [dsfDen_eq_sq_add, ha]; norm_num

/-- Settles O37: DEN is `(65536 - A)²` and a term that C up to 1.0 keeps nonnegative, and the table
reads 1.0 at one index only. -/
theorem denominatorIsPositive : Obligations.DenominatorIsPositive := by
  intro a mi
  have hc : cosine mi ≤ 65536 := (cosine_bound mi).2
  exact ⟨hc, sq_le_dsfDen a hc, one_le_one_sub_sq a, dsfDen_eq_one_iff a hc, cosine_eq_one mi⟩

/-- NUM takes its sign from S, because 1 - a² is positive. -/
theorem sign_dsfNum (a : BitVec 16) (s : Int) : Int.sign (dsfNum a s) = Int.sign s := by
  rw [dsfNum, Int.sign_mul, Int.sign_eq_one_of_pos (one_sub_sq_bound a).1, one_mul]

/-- The quotient as the sign of S and a size, rounded down. -/
theorem dsfQuotient_eq_sign_mul (a : BitVec 16) (s c : Int) :
    dsfQuotient a s c = Int.sign s * (|dsfNum a s| / dsfDen a c) := by
  rw [dsfQuotient, tdiv, tdiv_eq_sign_mul, sign_dsfNum]

/-- With a = 0 the quotient is the plain sine (R183). -/
theorem dsfQuotient_zero (s c : Int) : dsfQuotient 0#16 s c = s := by
  have hnum : dsfNum 0#16 s = 2 ^ 32 * s := by simp [dsfNum]
  have hden : dsfDen 0#16 c = 2 ^ 32 := by simp [dsfDen]
  rw [dsfQuotient, tdiv, hnum, hden, Int.mul_tdiv_cancel_left s (by norm_num)]

section
variable (a : BitVec 16) {s c : Int} (hc : c ≤ 65536)
include hc

theorem dsfSize_nonneg : 0 ≤ |dsfNum a s| / dsfDen a c :=
  Int.ediv_nonneg (abs_nonneg _) (zero_le_one.trans (one_le_dsfDen a hc))

theorem dsfQuotient_nonneg (hs : 0 ≤ s) : 0 ≤ dsfQuotient a s c := by
  rw [dsfQuotient_eq_sign_mul]
  exact mul_nonneg (Int.sign_nonneg_iff.mpr hs) (dsfSize_nonneg a hc)

theorem dsfQuotient_nonpos (hs : s ≤ 0) : dsfQuotient a s c ≤ 0 := by
  rw [dsfQuotient_eq_sign_mul]
  exact mul_nonpos_of_nonpos_of_nonneg (Int.sign_nonpos_iff.mpr hs) (dsfSize_nonneg a hc)

/-- The zeros of R183: S itself, or a size that the division loses. -/
theorem dsfQuotient_eq_zero_iff : dsfQuotient a s c = 0 ↔ s = 0 ∨ |dsfNum a s| < dsfDen a c := by
  rw [dsfQuotient_eq_sign_mul, mul_eq_zero, Int.sign_eq_zero_iff_zero,
    Int.ediv_eq_iff_of_pos (one_le_dsfDen a hc), zero_mul, zero_add,
    and_iff_right (abs_nonneg _)]

end

/-- Settles O36: DEN is positive and NUM has the sign of S, so the truncated quotient has it too;
the rows of the table are evaluated. -/
theorem quotientFollowsTheSine : Obligations.QuotientFollowsTheSine := by
  refine ⟨?formula, by decide⟩
  case formula =>
    rintro a ci mi _ _ _ rfl rfl rfl
    have hc : cosine mi ≤ 65536 := (cosine_bound mi).2
    refine ⟨tdiv_eq_sign_mul _ _, fun hs => dsfQuotient_nonneg a hc hs.le,
      fun hs => dsfQuotient_nonpos a hc hs.le, dsfQuotient_eq_zero_iff a hc, ?_⟩
    rintro rfl
    exact dsfQuotient_zero _ _

/-- At S = C = 1.0 a factor 65536 - A of NUM and DEN cancels (R185). -/
theorem dsfQuotient_peak (a : BitVec 16) :
    dsfQuotient a 65536 65536 = 65536 * (65536 + (a.toNat : Int)) / (65536 - (a.toNat : Int)) := by
  have hlt : a.toNat < 65536 := a.isLt
  have hnum : dsfNum a 65536 =
      (65536 - (a.toNat : Int)) * (65536 * (65536 + (a.toNat : Int))) := by rw [dsfNum]; ring
  have hden : dsfDen a 65536 = (65536 - (a.toNat : Int)) * (65536 - (a.toNat : Int)) := by
    rw [dsfDen]; ring
  rw [dsfQuotient, tdiv, hnum, hden, Int.mul_tdiv_mul_of_pos _ _ (by omega),
    Int.tdiv_eq_ediv_of_nonneg (by positivity)]

/-- A larger divisor gives no larger quotient. -/
theorem ediv_le_ediv_of_divisor_le {x b d : Int} (hx : 0 ≤ x) (hb : 0 < b) (h : b ≤ d) :
    x / d ≤ x / b := by
  rw [Int.le_ediv_iff_mul_le hb]
  calc x / d * b ≤ x / d * d := mul_le_mul_of_nonneg_left h (Int.ediv_nonneg hx (hb.le.trans h))
    _ ≤ x := Int.ediv_mul_le x (hb.trans_le h).ne'

/-- No S and C within 1.0 give more than the peak: |NUM| is largest at S = 1.0, DEN smallest at
C = 1.0. -/
theorem abs_dsfQuotient_le_peak (a : BitVec 16) {s c : Int} (hs : |s| ≤ 65536) (hc : c ≤ 65536) :
    |dsfQuotient a s c| ≤ dsfQuotient a 65536 65536 := by
  obtain ⟨hpos, -⟩ := one_sub_sq_bound a
  have hpeak : 0 ≤ dsfNum a 65536 := mul_nonneg hpos.le (by norm_num)
  have hnum : |dsfNum a s| ≤ dsfNum a 65536 := by
    rw [dsfNum, abs_mul, abs_of_pos hpos]
    exact mul_le_mul_of_nonneg_left hs hpos.le
  have hden : dsfDen a 65536 ≤ dsfDen a c := by
    rw [dsfDen_eq_sq_add a c, dsfDen_eq_sq_add a 65536, sub_self, mul_zero, add_zero]
    exact le_add_of_nonneg_right (mul_nonneg (by omega) (by omega))
  calc |dsfQuotient a s c| = |dsfNum a s| / dsfDen a c := abs_tdiv _ (one_le_dsfDen a hc)
    _ ≤ dsfNum a 65536 / dsfDen a c := Int.ediv_le_ediv (one_le_dsfDen a hc) hnum
    _ ≤ dsfNum a 65536 / dsfDen a 65536 :=
        ediv_le_ediv_of_divisor_le hpeak (one_le_dsfDen a le_rfl) hden
    _ = dsfQuotient a 65536 65536 := (Int.tdiv_eq_ediv_of_nonneg hpeak).symm

/-- The peak is largest at the largest A. -/
theorem dsfQuotient_peak_le (a : BitVec 16) : dsfQuotient a 65536 65536 ≤ 8589869056 := by
  have hlt : a.toNat < 65536 := a.isLt
  rw [dsfQuotient_peak]
  calc 65536 * (65536 + (a.toNat : Int)) / (65536 - (a.toNat : Int))
      ≤ 65536 * (65536 + (a.toNat : Int)) := Int.ediv_le_self _ (by positivity)
    _ ≤ 8589869056 := by omega

/-- Settles O38: every quotient is at most the one at S = C = 1.0, which the cancelled factor gives
in closed form. -/
theorem quotientIsBounded : Obligations.QuotientIsBounded := by
  refine ⟨fun a ci mi => ?bounds, by decide, by decide, by norm_num⟩
  case bounds =>
    have hle := abs_dsfQuotient_le_peak a (abs_sine_le ci) (cosine_bound mi).2
    have hsine : sine 64#8 = 65536 := (sine_eq_one _).mpr rfl
    have hcosine : cosine 0#8 = 65536 := (cosine_eq_one _).mpr rfl
    rw [hsine, hcosine, ← dsfQuotient_peak]
    exact ⟨hle, hle.trans (dsfQuotient_peak_le a), rfl⟩

end Sys2Proof.Machine
end

section
/-! PROOFS. The normalisation bucket of A (R186, 42_sample_datapath): where each bucket begins. -/

namespace Sys2Proof.Machine

/-- The first A of bucket k, the quotient 65536 · k / 100 rounded up. -/
def bucketStart (k : Nat) : Nat := (k * 65536 + 99) / 100

/-- The bucket in R186's numbers. -/
theorem normIndex_eq (a : BitVec 16) : normIndex a = a.toNat * 100 / 65536 := rfl

theorem normIndex_eq_iff (a : BitVec 16) (k : Nat) :
    normIndex a = k ↔ bucketStart k ≤ a.toNat ∧ a.toNat < bucketStart (k + 1) := by
  rw [normIndex_eq, bucketStart, bucketStart]; omega

theorem bucketStart_succ (k : Nat) :
    bucketStart (k + 1) = bucketStart k + 655 ∨ bucketStart (k + 1) = bucketStart k + 656 := by
  rw [bucketStart, bucketStart]; omega

/-- Bucket 99 ends where the range of A does. -/
theorem bucketStart_le {k : Nat} (h : k ≤ 100) : bucketStart k ≤ 65536 := by
  rw [bucketStart]; omega

theorem normIndex_le (a : BitVec 16) : normIndex a ≤ 99 := by
  have hlt : a.toNat < 65536 := a.isLt
  rw [normIndex_eq]; omega

/-- Settles O39: bucket k runs from its own start to the next one's, 655 or 656 further on. -/
theorem normBucketsAreEven : Obligations.NormBucketsAreEven := by
  refine ⟨fun a => ⟨normIndex_eq a, normIndex_le a⟩, fun k hk => ?run,
    by decide, by decide, by decide, by decide, by decide, by decide⟩
  case run =>
    have hend : bucketStart (k + 1) ≤ 65536 := bucketStart_le (by omega)
    rcases bucketStart_succ k with h | h
    · exact ⟨bucketStart k, 655, .inl rfl, h ▸ hend, fun a => h ▸ normIndex_eq_iff a k⟩
    · exact ⟨bucketStart k, 656, .inr rfl, h ▸ hend, fun a => h ▸ normIndex_eq_iff a k⟩

end Sys2Proof.Machine
end

section
/-! PROOFS. The scaling by a factor in Q16 and its two uses: normalisation (R187) and the output
mapping (R188, 42_sample_datapath). -/

namespace Sys2Proof.Machine

/-- The scaling in the rules' numbers. -/
theorem scaleQ16_eq (y : Int) (f : Nat) : scaleQ16 y f = Int.tdiv (y * f) 65536 := rfl

/-- A factor of 1.0 changes nothing. -/
@[simp] theorem scaleQ16_one (y : Int) : scaleQ16 y 65536 = y :=
  Int.mul_tdiv_cancel y (by norm_num)

@[simp] theorem scaleQ16_zero (y : Int) : scaleQ16 y 0 = 0 := by simp [scaleQ16_eq]

@[simp] theorem zero_scaleQ16 (f : Nat) : scaleQ16 0 f = 0 := by simp [scaleQ16_eq]

/-- Truncation toward zero treats both signs alike. -/
theorem neg_scaleQ16 (y : Int) (f : Nat) : scaleQ16 (-y) f = -scaleQ16 y f := by
  rw [scaleQ16_eq, neg_mul, Int.neg_tdiv, scaleQ16_eq]

/-- A product with a factor of n bits has n more bits. -/
theorem abs_mul_toNat_lt {y : Int} {m n : Nat} (f : BitVec n) (hy : |y| < 2 ^ m) :
    |y * (f.toNat : Int)| < 2 ^ (m + n) := by
  have hf : (f.toNat : Int) < 2 ^ n := by exact_mod_cast f.isLt
  rw [abs_mul, Nat.abs_cast, pow_add]
  exact mul_lt_mul'' hy hf (abs_nonneg y) (Int.natCast_nonneg _)

/-- The scaling drops 16 of the product's bits. -/
theorem abs_scaleQ16_lt {y : Int} {f m : Nat} (h : |y * (f : Int)| < 2 ^ (m + 16)) :
    |scaleQ16 y f| < 2 ^ m := by
  rw [scaleQ16_eq, abs_tdiv _ (by norm_num)]
  exact Int.ediv_lt_of_lt_mul (by norm_num) (by rwa [pow_add] at h)

theorem normalise_off {a : BitVec 16} {s : State} (y : Int) (h : s.ctrl.getLsbD 2 = false) :
    normalise a y s = y := by
  rw [normalise, State.normEn, h]; rfl

theorem normalise_on {a : BitVec 16} {s : State} (y : Int) (h : s.ctrl.getLsbD 2 = true) :
    normalise a y s = scaleQ16 y (s.norm.read (a.toNat * 100 / 65536)).toNat := by
  rw [normalise, State.normEn, h]; rfl

/-- Silence lies at OUT_OFFSET, which is OUT_SCALE (R44, R188). -/
theorem outputCode_zero (scale : BitVec 15) : outputCode scale 0 = scale.toNat := by
  rw [outputCode, zero_scaleQ16, zero_add]

/-- The distance of a code from OUT_OFFSET is the scaled sample. -/
theorem outputCode_sub_offset (scale : BitVec 15) (yn : Int) :
    outputCode scale yn - scale.toNat = scaleQ16 yn scale.toNat :=
  add_sub_cancel_right _ _

/-- Settles O40: the step is the scaling by the bucket's factor, a 24-bit word whose product with a
33-bit sample has 57 bits. -/
theorem normalisationScalesByTheBucket : Obligations.NormalisationScalesByTheBucket := by
  refine ⟨fun a y s h => normalise_off y h, ?_⟩
  rintro a y s _ h rfl
  rw [normalise_on y h]
  generalize s.norm.read (a.toNat * 100 / 65536) = f
  refine ⟨scaleQ16_eq y _, abs_mul_toNat_lt f, fun hy => abs_scaleQ16_lt (abs_mul_toNat_lt f hy),
    fun hone => ?one, fun hzero => ?zero, fun hy hf => ?sample⟩
  case one => rw [show f.toNat = 65536 by exact_mod_cast hone, scaleQ16_one]
  case zero =>
    have hy0 : scaleQ16 y f.toNat = 0 := by
      rw [show f.toNat = 0 by exact_mod_cast hzero, scaleQ16_zero]
    exact ⟨hy0, by rw [hy0, outputCode_zero]⟩
  case sample => rw [hy, scaleQ16_eq, hf]; decide

/-- Settles O41: a code's distance from OUT_OFFSET is the scaled sample, and the scaling is odd in
the sample. -/
theorem outputCodesAreSymmetric : Obligations.OutputCodesAreSymmetric := by
  refine ⟨fun scale yn => ⟨rfl, abs_mul_toNat_lt scale, ?symmetric⟩, by decide, by decide,
    by decide, by decide, by decide, by decide, by decide, by decide⟩
  case symmetric =>
    rw [outputCode_sub_offset, ← neg_sub (outputCode scale (-yn)), outputCode_sub_offset,
      neg_scaleQ16, neg_neg]

end Sys2Proof.Machine
end

section
/-! PROOFS. The envelope's steps in each mode (R212 to R219, 43_envelope): the level a tick reaches,
the mode and counter it leaves, and that the level moves one way only (R222). -/

namespace Sys2Proof.Machine

section
variable (p : Config.EnvParams) (s : State)

/-- The tick on which the level moves, in R214's and R216's terms. -/
theorem levelMoves_iff (rate : BitVec 16) :
    levelMoves rate s = true ↔ s.envStepcnt.toNat % max rate.toNat 1 = 0 := by
  rw [levelMoves, decide_eq_true_iff, effectiveRate]

/-- The level after an Attack tick (R214). -/
theorem attackLevel_eq :
    attackLevel p s = if s.envStepcnt.toNat % max s.attackRate.toNat 1 = 0
      then min (s.envLevel.toNat + p.step) p.max else s.envLevel.toNat := by
  simp only [attackLevel, levelMoves_iff]

/-- The level after a Decay tick (R216). -/
theorem decayLevel_eq :
    decayLevel p s = if s.envStepcnt.toNat % max s.decayRate.toNat 1 = 0
      then s.envLevel.toNat - p.step else s.envLevel.toNat := by
  simp only [decayLevel, levelMoves_iff]

variable {p s}

/-- Attack does not lower a level within ENV_MAX (R222). -/
theorem le_attackLevel (h : s.envLevel.toNat ≤ p.max) : s.envLevel.toNat ≤ attackLevel p s := by
  rw [attackLevel_eq]
  split
  · exact le_min (Nat.le_add_right _ _) h
  · exact le_rfl

/-- Decay does not raise the level (R222). -/
theorem decayLevel_le : decayLevel p s ≤ s.envLevel.toNat := by
  rw [decayLevel_eq]
  split
  · exact Nat.sub_le _ _
  · exact le_rfl

/-- An Attack level fits ENV_LEVEL: it is at most ENV_MAX, or it is the old level. -/
theorem attackLevel_lt (hp : p.Legal) : attackLevel p s < 2 ^ 17 := by
  obtain ⟨-, -, hmax⟩ := hp
  rw [attackLevel_eq]
  split
  · exact lt_of_le_of_lt ((min_le_right _ _).trans hmax) (by decide)
  · exact s.envLevel.isLt

/-- A Decay level fits ENV_LEVEL. -/
theorem decayLevel_lt : decayLevel p s < 2 ^ 17 := lt_of_le_of_lt decayLevel_le s.envLevel.isLt

/-- Attack at ENV_MAX hands over to Decay with the counter at 0 (R215). -/
theorem attackStep_of_max_le (h : p.max ≤ attackLevel p s) :
    attackStep p s = s.setEnv .decay (BitVec.ofNat 17 (attackLevel p s)) 0#32 := if_pos h

/-- Attack short of ENV_MAX goes on counting (R214). -/
theorem attackStep_of_lt_max (h : attackLevel p s < p.max) :
    attackStep p s =
      s.setEnv .attack (BitVec.ofNat 17 (attackLevel p s)) (s.envStepcnt + 1#32) :=
  if_neg (not_le.mpr h)

/-- Decay at the sustain level hands over to Sustain with the counter at 0 (R217). -/
theorem decayStep_of_le_sustain (h : decayLevel p s ≤ s.sustainLevel.toNat) :
    decayStep p s = s.setEnv .sustain (BitVec.ofNat 17 (decayLevel p s)) 0#32 := if_pos h

/-- Decay above the sustain level goes on counting (R216). -/
theorem decayStep_of_sustain_lt (h : s.sustainLevel.toNat < decayLevel p s) :
    decayStep p s =
      s.setEnv .decay (BitVec.ofNat 17 (decayLevel p s)) (s.envStepcnt + 1#32) :=
  if_neg (not_le.mpr h)

/-- ENV_LEVEL after an Attack tick, whichever mode comes next (R214, R215). -/
theorem toNat_attackStep_envLevel (hp : p.Legal) :
    (attackStep p s).envLevel.toNat = attackLevel p s := by
  have hfit : (BitVec.ofNat 17 (attackLevel p s)).toNat = attackLevel p s :=
    Nat.mod_eq_of_lt (attackLevel_lt hp)
  rw [attackStep]
  split <;> exact hfit

/-- ENV_LEVEL after a Decay tick, whichever mode comes next (R216, R217). -/
theorem toNat_decayStep_envLevel : (decayStep p s).envLevel.toNat = decayLevel p s := by
  have hfit : (BitVec.ofNat 17 (decayLevel p s)).toNat = decayLevel p s :=
    Nat.mod_eq_of_lt decayLevel_lt
  rw [decayStep]
  split <;> exact hfit

variable (p s)

/-- An envelope step writes no register but its three (R210). -/
theorem envStep_keepsRegs : KeepsRegs [.envMode, .envLevel, .envStepcnt] s (envStep p s) := by
  obtain ⟨m, l, n, h⟩ := envStep_eq_setEnv s p
  rw [h]
  intro r hr
  cases r with
  | envMode | envLevel | envStepcnt => simp at hr
  | _ => rfl

end

/-- Settles O45: the step's two branches are the rule's, and every level it can reach fits the
17-bit register. -/
theorem attackStepSaturatesThenDecays : Obligations.AttackStepSaturatesThenDecays := by
  rintro p s _ _ _ hp hm rfl rfl rfl
  rw [← attackLevel_eq]
  have hframe := envStep_keepsRegs p s
  rw [envStep_attack hm] at hframe ⊢
  refine ⟨toNat_attackStep_envLevel hp, fun htop => ?top, fun hbelow => ?below, hframe⟩
  case top => rw [attackStep_of_max_le htop]; exact ⟨rfl, rfl⟩
  case below => rw [attackStep_of_lt_max hbelow]; exact ⟨rfl, BitVec.toNat_add _ _⟩

/-- Settles O46: the step's two branches are the rule's, natural subtraction being the decrement
that saturates at 0. -/
theorem decayStepFallsThenSustains : Obligations.DecayStepFallsThenSustains := by
  rintro p s _ _ l _ hm rfl rfl hl
  have hlevel : l = decayLevel p s := by rw [hl, decayLevel_eq]; split <;> omega
  subst hlevel
  have hframe := envStep_keepsRegs p s
  rw [envStep_decay hm] at hframe ⊢
  refine ⟨congrArg _ toNat_decayStep_envLevel, fun hdone => ?done, fun habove => ?above, hframe⟩
  case done => rw [decayStep_of_le_sustain (by exact_mod_cast hdone)]; exact ⟨rfl, rfl⟩
  case above =>
    rw [decayStep_of_sustain_lt (by exact_mod_cast habove)]
    exact ⟨rfl, BitVec.toNat_add _ _⟩

end Sys2Proof.Machine
end

section
/-! PROOFS. Which words change ENV_MODE, and how (R218, R219, 43_envelope; R240, R250,
44_note_and_tick), and what an active tick leaves in the envelope's registers. -/

namespace Sys2Proof.Machine

section
variable (p : Config.EnvParams) (s : State)

/-- The sample of a tick leaves the stepped envelope as it is (R250). -/
@[simp] theorem activeTick_envMode : (activeTick p s).envMode = (envStep p s).envMode := by
  simp [activeTick]
@[simp] theorem activeTick_envLevel : (activeTick p s).envLevel = (envStep p s).envLevel := by
  simp [activeTick]
@[simp] theorem activeTick_envStepcnt :
    (activeTick p s).envStepcnt = (envStep p s).envStepcnt := by
  simp [activeTick]

variable {s}

/-- TICK with the gate open (R250). -/
theorem exec_tick_of_active (h : s.active = true) :
    exec .tick s = .next (activeTick Config.env s) := by
  simp only [exec, execTick, if_pos h]

/-- TICK with the gate closed (R251). -/
theorem exec_tick_of_not_active (h : ¬ s.active = true) : exec .tick s = .next s := by
  simp only [exec, execTick, if_neg h]

/-- No envelope step enters Release (R219). -/
theorem envStep_envMode_ne_release (h : s.envMode ≠ .release) :
    (envStep p s).envMode ≠ .release := by
  cases hm : s.envMode with
  | attack => rw [envStep_attack hm, attackStep]; split <;> simp
  | decay => rw [envStep_decay hm, decayStep]; split <;> simp
  | sustain => rw [envStep_sustain hm]; simp [sustainStep, hm]
  | release => exact absurd hm h

end

/-- The clear of STATUS leaves the mode. -/
@[simp] theorem writeStatus_envMode (v : BitVec 32) (s : State) :
    (writeStatus v s).envMode = s.envMode := by
  rcases writeStatus_cases v s with ⟨-, h⟩ | ⟨-, h⟩ <;> simp [h]

/-- No register that WRREG can write is ENV_MODE (R271, 45_register_access). -/
theorem writeReg_envMode {r : Reg} {v : BitVec 32} {s t : State} (h : writeReg r v s = some t) :
    t.envMode = s.envMode := by
  rcases writeReg_some h with
    ⟨-, rfl⟩ | ⟨-, rfl⟩ | ⟨-, rfl⟩ | ⟨-, rfl⟩ | ⟨-, rfl⟩ | ⟨-, rfl⟩ <;> simp

/-- The mode a command leaves: the old one, but for NOTEON's Attack and TICK's envelope step. -/
theorem Effect.envMode_cases {i : Instr} {s t : State} (h : Effect i s t) :
    t.envMode = s.envMode ∨ (i.opcode = .noteon ∧ t.envMode = .attack) ∨
      t.envMode = (envStep Config.env s).envMode := by
  cases h with
  | noteon => exact .inr (.inl ⟨rfl, rfl⟩)
  | tickActive => exact .inr (.inr (activeTick_envMode _ _))
  | illegal => exact .inl (raiseIllegal_envMode _ _ _)
  | wrreg _ hw => exact .inl (writeReg_envMode hw)
  | _ => exact .inl rfl

/-- The mode a word leaves: the old one, the envelope step's, or, under NOTEON's opcode alone,
Attack. -/
theorem runWord_envMode_cases (w : Word) (s : State) : ∃ t, runWord w s = .next t ∧
    (t.envMode = s.envMode ∨ (opcodeByte w = 0x04#8 ∧ t.envMode = .attack) ∨
      t.envMode = (envStep Config.env s).envMode) := by
  obtain ⟨t, ht, ⟨c, -, rfl⟩ | ⟨i, hi, he⟩⟩ := runWord_cases w s
  · exact ⟨_, ht, .inl (raiseIllegal_envMode _ _ _)⟩
  · refine ⟨t, ht, he.envMode_cases.imp_right (Or.imp_left ?_)⟩
    rintro ⟨hop, hmode⟩
    obtain ⟨hbyte, -, -⟩ := decode_ok hi
    exact ⟨by rw [hbyte, hop]; rfl, hmode⟩

/-- Settles O47: the tick is the Sustain step, and of the three modes a word can leave only
NOTEON's Attack is not Sustain. -/
theorem sustainFollowsTheLiveLevel : Obligations.SustainFollowsTheLiveLevel := by
  refine ⟨fun s ha hm => ⟨_, exec_tick_of_active ha, ?tick⟩, fun w s hm hw => ?word⟩
  case tick => simp [envStep_sustain hm, sustainStep, hm]
  case word =>
    obtain ⟨t, ht, hsame | ⟨hop, -⟩ | hstep⟩ := runWord_envMode_cases w s
    · exact ⟨t, ht, hsame.trans hm⟩
    · exact absurd hop hw
    · exact ⟨t, ht, by rw [hstep, envStep_sustain hm]; exact hm⟩

/-- Settles O48: none of the three modes a word can leave is Release. -/
theorem releaseIsANoOp : Obligations.ReleaseIsANoOp := by
  refine ⟨fun w s hm => ?_, fun _ _ => envStep_release⟩
  obtain ⟨t, ht, hsame | ⟨-, hattack⟩ | hstep⟩ := runWord_envMode_cases w s
  · exact ⟨t, ht, hsame ▸ hm⟩
  · exact ⟨t, ht, by simp [hattack]⟩
  · exact ⟨t, ht, hstep ▸ envStep_envMode_ne_release _ hm⟩

/-- Settles O51: the level a tick stores is the mode's, which lies on the right side of the old one;
in Attack because the invariant keeps the old one within ENV_MAX. -/
theorem envelopeIsMonotone : Obligations.EnvelopeIsMonotone := by
  intro s hinv
  by_cases ha : s.active = true
  · refine ⟨_, exec_tick_of_active ha, fun hm => ?attack, fun hm => ?decay⟩
    case attack =>
      rw [activeTick_envLevel, envStep_attack hm, toNat_attackStep_envLevel Config.env_legal]
      exact le_attackLevel hinv.levelBound
    case decay =>
      rw [activeTick_envLevel, envStep_decay hm, toNat_decayStep_envLevel]
      exact decayLevel_le
  · exact ⟨s, exec_tick_of_not_active ha, fun _ => le_rfl, fun _ => le_rfl⟩

end Sys2Proof.Machine
end

section
/-! PROOFS. A stored rate counts only through the rate it stands for (R212, 43_envelope). -/

namespace Sys2Proof.Machine

variable (p : Config.EnvParams) (s : State) {r : BitVec 16}

/-- Another spelling of the attack rate in use changes the step in nothing else. -/
theorem envStep_setAttackRate (h : effectiveRate r = effectiveRate s.attackRate) :
    envStep p (s.setAttackRate r) = (envStep p s).setAttackRate r := by
  have hlevel : attackLevel p (s.setAttackRate r) = attackLevel p s := by
    simp only [attackLevel, levelMoves, State.setAttackRate_attackRate, h]
    rfl
  cases hm : s.envMode <;> simp only [envStep, State.setAttackRate_envMode, hm]
  case attack =>
    rw [attackStep, attackStep, hlevel, apply_ite (State.setAttackRate · r)]
    rfl
  case decay =>
    rw [decayStep, decayStep, apply_ite (State.setAttackRate · r)]
    rfl
  case sustain => rfl

/-- Another spelling of the decay rate in use changes the step in nothing else. -/
theorem envStep_setDecayRate (h : effectiveRate r = effectiveRate s.decayRate) :
    envStep p (s.setDecayRate r) = (envStep p s).setDecayRate r := by
  have hlevel : decayLevel p (s.setDecayRate r) = decayLevel p s := by
    simp only [decayLevel, levelMoves, State.setDecayRate_decayRate, h]
    rfl
  cases hm : s.envMode <;> simp only [envStep, State.setDecayRate_envMode, hm]
  case attack =>
    rw [attackStep, attackStep, apply_ite (State.setDecayRate · r)]
    rfl
  case decay =>
    rw [decayStep, decayStep, hlevel, apply_ite (State.setDecayRate · r)]
    rfl
  case sustain => rfl

/-- At the rate 1 the level moves on every tick. -/
theorem levelMoves_of_effectiveRate_one (h : effectiveRate r = 1) : levelMoves r s = true := by
  rw [levelMoves, h, Nat.mod_one]
  rfl

/-- Settles O49: 0 and 1 both stand for the rate 1. -/
theorem rateZeroActsAsOne : Obligations.RateZeroActsAsOne :=
  ⟨fun p s => ⟨envStep_setAttackRate p (s.setAttackRate 1#16) rfl,
      envStep_setDecayRate p (s.setDecayRate 1#16) rfl⟩,
    fun s => ⟨levelMoves_of_effectiveRate_one s rfl, levelMoves_of_effectiveRate_one s rfl⟩⟩

end Sys2Proof.Machine
end

section
/-! PROOFS. The closed gate (R246, R251, 44_note_and_tick): what every command but NOTEON leaves
alone while the gate is closed, and that a matching NOTEOFF closes it. -/

namespace Sys2Proof

/-- A command whose word shows what the decode algorithm of R115 asks for is decoded from it. -/
theorem decode_encode_of_statement {i : Instr} (h : Laws.Encoding.Statement i) :
    decode (encode i) = .ok i := by
  obtain ⟨hop, hmask, hread⟩ := h
  rw [decode_opcode hop, if_pos hmask, hread]

end Sys2Proof

namespace Sys2Proof.Machine

/-- Settles O25: TICK tests the gate first. -/
theorem inactiveTickChangesNothing : Obligations.InactiveTickChangesNothing :=
  fun _ hclosed => exec_tick_of_not_active (Bool.eq_false_iff.mp hclosed)

/-- `t` has its gate closed, no DAC write that `s` has not, and the envelope of `s` (R246). -/
structure SilentSince (s t : State) : Prop where
  active : t.active = false
  dacOut : t.dacOut = s.dacOut
  envMode : t.envMode = s.envMode
  envLevel : t.envLevel = s.envLevel
  envStepcnt : t.envStepcnt = s.envStepcnt

variable {s t u : State}

theorem SilentSince.refl (h : s.active = false) : SilentSince s s := ⟨h, rfl, rfl, rfl, rfl⟩

theorem SilentSince.trans (h : SilentSince s t) (h' : SilentSince t u) : SilentSince s u :=
  ⟨h'.active, h'.dacOut.trans h.dacOut, h'.envMode.trans h.envMode, h'.envLevel.trans h.envLevel,
    h'.envStepcnt.trans h.envStepcnt⟩

/-- A message recorded with ACTIVE clear closes the gate and does no more that is heard (R245). -/
theorem silentSince_setNoteState (s : State) (cmd note vel : BitVec 8) :
    SilentSince s (s.setNoteState (noteStateOf false cmd note vel)) :=
  ⟨noteStateOf_active false cmd note vel, rfl, rfl, rfl, rfl⟩

/-- IllegalCommand opens no gate and is not heard (R301, 60_exceptions). -/
theorem silentSince_raiseIllegal (op : BitVec 8) (c : Cause) (h : s.active = false) :
    SilentSince s (raiseIllegal op c s) where
  active := by rw [State.active, raiseIllegal_noteState]; exact h
  dacOut := raiseIllegal_dacOut s op c
  envMode := raiseIllegal_envMode s op c
  envLevel := raiseIllegal_envLevel s op c
  envStepcnt := raiseIllegal_envStepcnt s op c

/-- Nothing that WRREG can write opens the gate or is heard while it is closed (R271,
45_register_access). -/
theorem silentSince_writeReg {r : Reg} {v : BitVec 32} (hw : writeReg r v s = some t)
    (h : s.active = false) : SilentSince s t := by
  obtain ⟨-, rfl⟩ | ⟨-, rfl⟩ | ⟨-, rfl⟩ | ⟨-, rfl⟩ | ⟨-, rfl⟩ | ⟨-, rfl⟩ := writeReg_some hw
  case inr.inr.inr.inr.inr =>
    obtain ⟨-, hclear⟩ | ⟨-, hkeep⟩ := writeStatus_cases v s
    · rw [hclear]; exact ⟨h, rfl, rfl, rfl, rfl⟩
    · rw [hkeep]; exact .refl h
  all_goals exact ⟨h, rfl, rfl, rfl, rfl⟩

/-- While the gate is closed no command but NOTEON opens it, writes the DAC port or moves the
envelope. -/
theorem Effect.silentSince {i : Instr} (he : Effect i s t) (hi : i.opcode ≠ .noteon)
    (h : s.active = false) : SilentSince s t := by
  cases he with
  | noteon => exact absurd rfl hi
  | noteoff cmd note vel => rw [h, ite_self]; exact silentSince_setNoteState s cmd note vel
  | tickActive ha => exact absurd ha (Bool.eq_false_iff.mp h)
  | illegal => exact silentSince_raiseIllegal _ _ h
  | wrreg _ hw => exact silentSince_writeReg hw h
  | _ => exact ⟨h, rfl, rfl, rfl, rfl⟩

/-- Nor does a word without NOTEON's opcode. -/
theorem runWord_silentSince {w : Word} (hw : opcodeByte w ≠ 0x04#8) (h : s.active = false) :
    ∃ t, runWord w s = .next t ∧ SilentSince s t := by
  obtain ⟨t, ht, ⟨c, -, rfl⟩ | ⟨i, hi, he⟩⟩ := runWord_cases w s
  · exact ⟨_, ht, silentSince_raiseIllegal _ c h⟩
  · obtain ⟨hbyte, -, -⟩ := decode_ok hi
    have hop : i.opcode ≠ .noteon := fun hnoteon => hw (by rw [hbyte, hnoteon]; rfl)
    exact ⟨t, ht, he.silentSince hop h⟩

/-- Nor do any number of such words. -/
theorem runWords_silentSince {ws : List Word} (hws : ∀ w ∈ ws, opcodeByte w ≠ 0x04#8)
    (h : s.active = false) : ∃ t, runWords ws s = .next t ∧ SilentSince s t := by
  induction ws generalizing s with
  | nil => exact ⟨s, rfl, .refl h⟩
  | cons w ws ih =>
    obtain ⟨hw, hrest⟩ := List.forall_mem_cons.mp hws
    obtain ⟨u, hu, hsu⟩ := runWord_silentSince hw h
    obtain ⟨t, ht, hut⟩ := ih hrest hsu.active
    exact ⟨t, by simpa only [runWords, hu] using ht, hsu.trans hut⟩

/-- NOTEOFF of the latched note records its message with ACTIVE clear (R245). -/
theorem runWord_noteoff_latched (cmd vel : BitVec 8) (s : State) :
    runWord (encode (.noteoff cmd s.activeNote vel)) s =
      .next (s.setNoteState (noteStateOf false cmd s.activeNote vel)) := by
  rw [runWord, decode_encode_of_statement (Laws.Encoding.noteoff cmd s.activeNote vel)]
  simp only [exec, execNoteoff, if_true, activeAfterOff]

/-- Settles O59: the NOTEOFF closes the gate, and the words after it keep the silence. -/
theorem silenceUntilNoteon : Obligations.SilenceUntilNoteon := by
  intro cmd vel ws s hws
  have hoff := silentSince_setNoteState s cmd s.activeNote vel
  obtain ⟨t, ht, hsilent⟩ := runWords_silentSince hws hoff.active
  obtain ⟨hactive, hdac, hmode, hlevel, hcnt⟩ := hoff.trans hsilent
  exact ⟨t, by simpa only [runWords, runWord_noteoff_latched] using ht,
    hactive, hdac, hmode, hlevel, hcnt⟩

end Sys2Proof.Machine
end

section
/-! PROOFS. Legal words, and the writers of each register and of NORM (R275, 45_register_access). -/

namespace Sys2Proof

/-- A word without a cause spells a command that passes its operand check (R302, 60_exceptions). -/
theorem decode_of_wordCause_none {w : Word} (h : wordCause w = none) :
    ∃ i, decode w = .ok i ∧ i.operandCause = none := by
  unfold wordCause at h
  split at h
  case h_1 i hi => exact ⟨i, hi, h⟩
  case h_2 => cases h

end Sys2Proof

namespace Sys2Proof.Machine

variable {s t : State}

/-- A word either is illegal and raises its cause, or is legal and has its command's effect. -/
theorem runWord_legal_or_illegal (w : Word) (s : State) : ∃ t, runWord w s = .next t ∧
    ((∃ c, wordCause w = some c ∧ t = raiseIllegal (opcodeByte w) c s) ∨
      (wordCause w = none ∧ ∃ i, decode w = .ok i ∧ i.operandCause = none ∧ Effect i s t)) := by
  cases hc : wordCause w with
  | some c => exact ⟨_, runWord_illegal s hc, .inl ⟨c, rfl, rfl⟩⟩
  | none =>
    obtain ⟨i, hi, hlegal⟩ := decode_of_wordCause_none hc
    obtain ⟨t, ht, he⟩ := exec_next i s
    exact ⟨t, by simp only [runWord, hi, ht], .inr ⟨rfl, i, hi, hlegal, he⟩⟩

/-- A write that succeeds writes its register and nothing else (R271). -/
theorem writeReg_writesOnly {r : Reg} {v : BitVec 32} (hw : writeReg r v s = some t) :
    WritesOnly [r] s t := by
  obtain ⟨rfl, rfl⟩ | ⟨rfl, rfl⟩ | ⟨rfl, rfl⟩ | ⟨rfl, rfl⟩ | ⟨rfl, rfl⟩ | ⟨rfl, rfl⟩ :=
    writeReg_some hw
  case' inr.inr.inr.inr.inr => obtain ⟨-, h⟩ | ⟨-, h⟩ := writeStatus_cases v s <;> rw [h]
  all_goals
    refine writesOnly_of (fun q hq => ?_) rfl rfl rfl ⟨rfl, rfl, rfl⟩
    cases q <;> simp_all [readReg]

/-- A register that can be written is one the table gives to WRREG (R271). -/
theorem mayWrite_of_writeReg {r : Reg} {v : BitVec 32} (hw : writeReg r v s = some t) (w : Word) :
    mayWrite .wrreg w s r = true := by
  obtain ⟨rfl, -⟩ | ⟨rfl, -⟩ | ⟨rfl, -⟩ | ⟨rfl, -⟩ | ⟨rfl, -⟩ | ⟨rfl, -⟩ := writeReg_some hw <;> rfl

/-- The registers that an active tick writes (R250, 44_note_and_tick). -/
def tickRegs : List Reg := [.carAcc, .modAcc, .envMode, .envLevel, .envStepcnt, .lastCode, .lastA]

/-- An active tick writes no other register. -/
theorem activeTick_keepsRegs (p : Config.EnvParams) (s : State) :
    KeepsRegs tickRegs s (activeTick p s) := by
  intro r hr
  cases r with
  | carAcc | modAcc | envMode | envLevel | envStepcnt | lastCode | lastA => simp [tickRegs] at hr
  | _ => simp [readReg, activeTick]

/-- With the gate open the table gives them all to TICK. -/
theorem mayWrite_tick_of_active {r : Reg} (hr : r ∈ tickRegs) (ha : s.active = true) (w : Word) :
    mayWrite .tick w s r = true := by
  simp only [tickRegs, List.mem_cons, List.not_mem_nil, or_false] at hr
  obtain rfl | rfl | rfl | rfl | rfl | rfl | rfl := hr <;> simp [mayWrite, ha]

/-- The R bit of SETFREQ is bit 48 of its word (R105, 30_encoding). -/
theorem getLsbD_48_of_decode_setfreq {w : Word} {fc fm : BitVec 24}
    (h : decode w = .ok (.setfreq fc fm 1#1)) : w.getLsbD 48 = true := by
  obtain ⟨-, -, hread⟩ := decode_ok h
  simp only [Instr.opcode, Opcode.read, Instr.setfreq.injEq] at hread
  obtain ⟨-, -, hbit⟩ := hread
  calc w.getLsbD 48 = (field w 48 1).getLsbD 0 := (getLsbD_field w 48 1 0).symm
    _ = true := by rw [hbit]; rfl

/-- A legal command keeps every register that the table does not give it (R275). -/
theorem Effect.readReg_eq_of_not_mayWrite {i : Instr} {w : Word} {r : Reg} (he : Effect i s t)
    (hlegal : i.operandCause = none) (hw : decode w = .ok i)
    (h : ¬ mayWrite i.opcode w s r = true) : readReg r t = readReg r s := by
  cases he with
  | illegal _ hc => rw [hlegal] at hc; cases hc
  | nop | tickInactive => rfl
  | init =>
    cases r with
    | sampleRate | dacBits | outScale | carAcc | modAcc => exact absurd rfl h
    | _ => rfl
  | setfreqBoth =>
    have hbit := getLsbD_48_of_decode_setfreq hw
    cases r with
    | carStep | modStep | carAcc | modAcc => simp [Instr.opcode, mayWrite, hbit] at h
    | _ => rfl
  | setfreqMod | setmod =>
    cases r with
    | modStep => exact absurd rfl h
    | _ => rfl
  | noteon =>
    cases r with
    | noteState | activeNote | envMode | envLevel | envStepcnt => exact absurd rfl h
    | _ => rfl
  | noteoff =>
    cases r with
    | noteState => exact absurd rfl h
    | _ => rfl
  | tickActive ha =>
    exact activeTick_keepsRegs _ s r fun hr => h (mayWrite_tick_of_active hr ha w)
  | wrreg _ hv =>
    obtain ⟨hregs, -⟩ := writeReg_writesOnly hv
    refine hregs r fun hr => h ?_
    rw [List.mem_singleton.mp hr]
    exact mayWrite_of_writeReg hv w
  | rdreg | rdnorm => exact readReg_emitRsp s r _
  | wrnorm => exact readReg_setNorm s r _

/-- A command keeps every entry of NORM but the one a WRNORM names (R273, R275). -/
theorem Effect.norm_read_cases {i : Instr} (he : Effect i s t) (k : Nat) :
    t.norm.read k = s.norm.read k ∨ ∃ idx v, i = .wrnorm idx v ∧ k = idx.toNat := by
  cases he with
  | illegal => exact .inl (by rw [raiseIllegal_norm])
  | tickActive => exact .inl (by simp [activeTick])
  | wrreg _ hw =>
    obtain ⟨-, hnorm, -⟩ := writeReg_writesOnly hw
    exact .inl (hnorm k)
  | @wrnorm idx v =>
    by_cases hk : k = idx.toNat
    · exact .inr ⟨idx, v, rfl, hk⟩
    · exact .inl (Memory.read_write_other _ v hk)
  | _ => exact .inl rfl

/-- A WRNORM word has WRNORM's opcode and its index in bits 55 to 48 (R109, 30_encoding). -/
theorem fields_of_decode_wrnorm {w : Word} {idx : BitVec 8} {v : BitVec 24}
    (h : decode w = .ok (.wrnorm idx v)) : opcodeByte w = 0x09#8 ∧ field w 48 8 = idx := by
  obtain ⟨hbyte, -, hread⟩ := decode_ok h
  simp only [Instr.opcode, Opcode.read, Instr.wrnorm.injEq] at hread
  exact ⟨hbyte, hread.1⟩

/-- Settles O56: an illegal word's raise writes STATUS alone, and a legal word's effect keeps what
the table does not give its opcode. -/
theorem onlyListedWordsWrite : Obligations.OnlyListedWordsWrite := by
  intro w s
  obtain ⟨t, ht, ⟨c, hc, rfl⟩ | ⟨hc, i, hi, hlegal, he⟩⟩ := runWord_legal_or_illegal w s
  · refine ⟨_, ht, fun r hr => .inl ⟨?_, by rw [hc]; rfl⟩, fun k hk => ?_⟩
    · by_contra hne
      exact hr (readReg_raiseIllegal s _ c hne)
    · exact absurd (by rw [raiseIllegal_norm]) hk
  · refine ⟨t, ht, fun r hr => .inr ?_, fun k hk => ?_⟩
    · obtain ⟨hbyte, -, -⟩ := decode_ok hi
      refine ⟨i.opcode, hbyte, hc, ?_⟩
      by_contra hnot
      exact hr (he.readReg_eq_of_not_mayWrite hlegal hi hnot)
    · obtain ⟨idx, v, rfl, hidx⟩ := (he.norm_read_cases k).resolve_left hk
      obtain ⟨hop, hfield⟩ := fields_of_decode_wrnorm hi
      exact ⟨hop, hc, by rw [hfield, hidx]⟩

end Sys2Proof.Machine
end

section
/-! PROOFS. The responses of a command, a word and any words, counted (R276, 45_register_access). -/

namespace Sys2Proof.Machine

/-- `t` has made the responses of `s` and then `n` more. -/
def RespondsMore (n : Nat) (s t : State) : Prop :=
  ∃ new, t.rspOut = s.rspOut ++ new ∧ new.length = n

variable {s t u : State} {m n : Nat}

theorem respondsMore_zero (h : t.rspOut = s.rspOut) : RespondsMore 0 s t :=
  ⟨[], by rw [h, List.append_nil], rfl⟩

theorem respondsMore_one {v : BitVec 32} (h : t.rspOut = s.rspOut ++ [v]) : RespondsMore 1 s t :=
  ⟨[v], h, rfl⟩

theorem RespondsMore.trans (h : RespondsMore m s t) (h' : RespondsMore n t u) :
    RespondsMore (m + n) s u := by
  obtain ⟨a, ha, rfl⟩ := h
  obtain ⟨b, hb, rfl⟩ := h'
  exact ⟨a ++ b, by rw [hb, ha, List.append_assoc], List.length_append⟩

/-- The responses owed to an opcode byte: one to a read opcode, none to another. -/
def responseCount (op : BitVec 8) : Nat := if isReadOpcode op then 1 else 0

/-- IllegalCommand responds as often as a legal command of its opcode does. -/
theorem respondsMore_raiseIllegal (op : BitVec 8) (c : Cause) (s : State) :
    RespondsMore (responseCount op) s (raiseIllegal op c s) := by
  have hrsp := raiseIllegal_rspOut s op c
  unfold responseCount
  by_cases hop : isReadOpcode op = true
  · rw [if_pos hop] at hrsp ⊢; exact respondsMore_one hrsp
  · rw [if_neg hop] at hrsp ⊢; exact respondsMore_zero hrsp

/-- A command responds once if its opcode reads, and not at all otherwise. -/
theorem Effect.respondsMore {i : Instr} (he : Effect i s t) :
    RespondsMore (responseCount i.opcode.byte) s t := by
  cases he with
  | illegal => exact respondsMore_raiseIllegal _ _ _
  | rdreg | rdnorm => exact respondsMore_one rfl
  | tickActive => exact respondsMore_zero (by simp [activeTick])
  | wrreg _ hw =>
    obtain ⟨-, -, ⟨-, hrsp⟩, -⟩ := writeReg_writesOnly hw
    exact respondsMore_zero hrsp
  | _ => exact respondsMore_zero rfl

/-- So does a word, legal or not. -/
theorem runWord_respondsMore (w : Word) (s : State) :
    ∃ t, runWord w s = .next t ∧ RespondsMore (responseCount (opcodeByte w)) s t := by
  obtain ⟨t, ht, ⟨c, -, rfl⟩ | ⟨i, hi, he⟩⟩ := runWord_cases w s
  · exact ⟨_, ht, respondsMore_raiseIllegal _ c s⟩
  · obtain ⟨hbyte, -, -⟩ := decode_ok hi
    exact ⟨t, ht, hbyte ▸ he.respondsMore⟩

/-- Any words respond as often as there are reads among them. -/
theorem runWords_respondsMore (ws : List Word) (s : State) : ∃ t, runWords ws s = .next t ∧
    RespondsMore (ws.countP fun w => isReadOpcode (opcodeByte w)) s t := by
  induction ws generalizing s with
  | nil => exact ⟨s, rfl, respondsMore_zero rfl⟩
  | cons w ws ih =>
    obtain ⟨u, hu, hsu⟩ := runWord_respondsMore w s
    obtain ⟨t, ht, hut⟩ := ih u
    refine ⟨t, by simpa only [runWords, hu] using ht, ?_⟩
    rw [List.countP_cons, Nat.add_comm]
    exact hsu.trans hut

/-- Settles O58: the count adds up word by word, and the raise of an illegal read responds 0. -/
theorem responsesCountTheReads : Obligations.ResponsesCountTheReads := by
  refine ⟨fun ws s => ?_, fun w c s hc hread => ?_⟩
  · obtain ⟨t, ht, new, hnew, hlen⟩ := runWords_respondsMore ws s
    refine ⟨t, new, ht, hnew, hlen.trans (List.countP_congr fun w _ => ?_)⟩
    rw [isReadOpcode_iff, decide_eq_true_iff]
  · refine ⟨_, runWord_illegal s hc, ?_⟩
    rw [raiseIllegal_rspOut, if_pos (isReadOpcode_iff.mpr hread)]

end Sys2Proof.Machine
end

section
/-! PROOFS. The cause of a word and how it is recorded (R301 to R303, 60_exceptions): the decoder's
tests, then the opcode's one operand check. -/

namespace Sys2Proof

/-- Under a defined opcode the reserved mask is tested before the operands (R303). -/
theorem wordCause_of_opcode {op : Opcode} {w : Word} (h : opcodeByte w = op.byte) :
    wordCause w =
      if w &&& op.format.reservedMask ≠ 0#64 then some .reservedBits
      else (op.read w).operandCause := by
  rw [ite_not, wordCause, decode_opcode h]
  by_cases hmask : w &&& op.format.reservedMask = 0#64
  · simp only [if_pos hmask]
  · simp only [if_neg hmask]

/-- INIT's operand check (R142). -/
theorem operandCause_init (sr : BitVec 32) (db : BitVec 8) :
    (Instr.init sr db).operandCause =
      if sr.toNat = 0 ∨ db.toNat < 1 ∨ 16 < db.toNat then some .badInitOperand else none := by
  rw [← ite_not]
  exact if_congr (by simp [Instr.WellFormed]; omega) rfl rfl

/-- WRREG's operand check: only the six inputs can be written (R271). -/
theorem operandCause_wrreg (idx : BitVec 8) (v : BitVec 32) :
    (Instr.wrreg idx v).operandCause =
      if 0x06 ≤ idx.toNat then some .badRegister else none := by
  rw [← ite_not]
  exact if_congr (by simp [Instr.WellFormed]; omega) rfl rfl

/-- RDREG's operand check (R272). -/
theorem operandCause_rdreg (idx : BitVec 8) :
    (Instr.rdreg idx).operandCause =
      if 0x14 ≤ idx.toNat then some .badRegister else none := by
  rw [← ite_not]
  exact if_congr (by simp [Instr.WellFormed]; omega) rfl rfl

/-- WRNORM's operand check (R273). -/
theorem operandCause_wrnorm (idx : BitVec 8) (v : BitVec 24) :
    (Instr.wrnorm idx v).operandCause =
      if 99 < idx.toNat then some .badNormIndex else none := by
  rw [← ite_not]
  exact if_congr (by simp [Instr.WellFormed]; omega) rfl rfl

/-- RDNORM's operand check (R274). -/
theorem operandCause_rdnorm (idx : BitVec 8) :
    (Instr.rdnorm idx).operandCause =
      if 99 < idx.toNat then some .badNormIndex else none := by
  rw [← ite_not]
  exact if_congr (by simp [Instr.WellFormed]; omega) rfl rfl

end Sys2Proof

namespace Sys2Proof.Machine

/-- Settles O6: the decoder tests the opcode and then the mask, and what decodes is left to the one
operand check of its command. The two examples are the words' causes, raised. -/
theorem firstCauseIsRecorded : Obligations.FirstCauseIsRecorded := by
  refine ⟨fun w h => wordCause_of_decode_error (decode_undefinedOpcode h), fun op w h => ?_,
    fun s => ⟨raises_of_wordCause s (c := .reservedBits) (by decide),
      raises_of_wordCause s (c := .badInitOperand) (by decide)⟩⟩
  rw [wordCause_of_opcode h]
  congr 1
  cases op with
  | init => exact operandCause_init _ _
  | wrreg => exact operandCause_wrreg _ _
  | rdreg => exact operandCause_rdreg _
  | wrnorm => exact operandCause_wrnorm _ _
  | rdnorm => exact operandCause_rdnorm _
  | nop | setfreq | setmod | noteon | noteoff | tick => rfl

/-- Settles O7: an illegal word is one raise of its cause, whose code is the listed one. -/
theorem illegalCommandIsPrecise : Obligations.IllegalCommandIsPrecise := by
  intro w s c code hc hmem
  simp only [List.mem_cons, Prod.mk.injEq, List.not_mem_nil, or_false] at hmem
  obtain ⟨rfl, rfl⟩ | ⟨rfl, rfl⟩ | ⟨rfl, rfl⟩ | ⟨rfl, rfl⟩ | ⟨rfl, rfl⟩ := hmem <;>
    exact raises_of_wordCause s hc

end Sys2Proof.Machine
end

section
/-! PROOFS. The encoding round trip (R115, R116, 30_encoding): the word of a command shows what the
decoder asks for, and the placed fields of a word are the word less its reserved bits. -/

namespace Sys2Proof

/-- The word of every command has its opcode byte, clear reserved bits and its operands' fields. -/
theorem encoding_statement (i : Instr) : Laws.Encoding.Statement i := by
  cases i with
  | nop => exact Laws.Encoding.nop
  | init sr db => exact Laws.Encoding.init sr db
  | setfreq fc fm r => exact Laws.Encoding.setfreq fc fm r
  | setmod fm => exact Laws.Encoding.setmod fm
  | noteon cmd note vel => exact Laws.Encoding.noteon cmd note vel
  | noteoff cmd note vel => exact Laws.Encoding.noteoff cmd note vel
  | tick => exact Laws.Encoding.tick
  | wrreg idx val => exact Laws.Encoding.wrreg idx val
  | rdreg idx => exact Laws.Encoding.rdreg idx
  | wrnorm idx val => exact Laws.Encoding.wrnorm idx val
  | rdnorm idx => exact Laws.Encoding.rdnorm idx

/-- The decoder reads every command back from its word. -/
theorem decode_encode (i : Instr) : decode (encode i) = .ok i :=
  decode_encode_of_statement (encoding_statement i)

/-- A field put back in its place is the word's bits there and no others. -/
theorem place_field (w : Word) (lo n : Nat) :
    place (field w lo n) lo = w &&& place (BitVec.allOnes n) lo := by
  refine BitVec.eq_of_getLsbD_eq fun k hk => ?_
  simp only [getLsbD_place, getLsbD_field, BitVec.getLsbD_and, BitVec.getLsbD_allOnes]
  by_cases hlo : k < lo
  · simp [hlo]
  · rw [show lo + (k - lo) = k by omega, Bool.and_left_comm, Bool.and_comm (w.getLsbD k)]
    simp [hlo, hk]

/-- A word that meets no bit of a mask lies within the mask's complement. -/
theorem and_not_of_and_eq_zero {w m : Word} (h : w &&& m = 0#64) : w &&& ~~~m = w := by
  calc w &&& ~~~m = w &&& m ||| w &&& ~~~m := by rw [h, BitVec.zero_or]
    _ = w := by rw [← BitVec.and_or_distrib_left, BitVec.or_not_self, BitVec.and_allOnes]

/-- The fields of a format and the opcode byte cover every bit but the reserved ones: encoding what
was read from a word gives the word less its reserved bits (R102, R115). -/
theorem encode_read {op : Opcode} {w : Word} (h : opcodeByte w = op.byte) :
    encode (op.read w) = w &&& ~~~op.format.reservedMask := by
  rw [opcodeByte] at h
  cases op <;>
    simp only [Opcode.read, encode, ← h, place_field, ← BitVec.and_or_distrib_left] <;>
    rfl

/-- A word that decodes is the word of the command it decodes to. -/
theorem encode_of_decode {w : Word} {i : Instr} (h : decode w = .ok i) : encode i = w := by
  obtain ⟨hop, hmask, hread⟩ := decode_ok h
  calc encode i = encode (i.opcode.read w) := by rw [hread]
    _ = w &&& ~~~i.opcode.format.reservedMask := encode_read hop
    _ = w := and_not_of_and_eq_zero hmask

/-- Settles O1: each command's word shows what the decode algorithm asks for. -/
theorem decodeOfEncode : Obligations.DecodeOfEncode := decode_encode

/-- Settles O2: the command's word is the decoded word less its reserved bits, which are clear. -/
theorem encodeOfDecode : Obligations.EncodeOfDecode := fun _ _ => encode_of_decode

end Sys2Proof
end

section
/-! PROOFS. The assembler (R116, R117, 30_encoding): the numbers of the words that the formats lay
out, and what the field check makes of an operand. -/

namespace Sys2Proof

/-- A field above a word whose number is known. -/
theorem toNat_place_or_of {n lo x : Nat} (v : BitVec n) {w : Word} (hw : w.toNat = x)
    (hx : x < 2 ^ lo) (h : lo + n ≤ 64) : (place v lo ||| w).toNat = v.toNat * 2 ^ lo + x := by
  rw [toNat_place_or v w h (hw ▸ hx), hw]

section
variable (op : BitVec 8) {n : Nat}

/-- The layout of an opcode and one operand (R106, R108). -/
theorem toNat_operandWord (v : BitVec n) {lo : Nat} (h : lo + n ≤ 56) :
    (place op 56 ||| place v lo).toNat = op.toNat * 2 ^ 56 + v.toNat * 2 ^ lo := by
  have hv : v.toNat * 2 ^ lo < 2 ^ 56 := by
    calc v.toNat * 2 ^ lo < 2 ^ n * 2 ^ lo := Nat.mul_lt_mul_of_pos_right v.isLt (by positivity)
      _ = 2 ^ (lo + n) := by rw [← Nat.pow_add, Nat.add_comm]
      _ ≤ 2 ^ 56 := Nat.pow_le_pow_right (by decide) h
  exact toNat_place_or_of op (toNat_place v (by omega)) hv (by decide)

/-- The layout of an opcode, an index byte and a value (R104, R108, R109). -/
theorem toNat_indexedWord (idx : BitVec 8) (v : BitVec n) (h : n ≤ 48) :
    (place op 56 ||| place idx 48 ||| place v 0).toNat =
      op.toNat * 2 ^ 56 + idx.toNat * 2 ^ 48 + v.toNat := by
  have hv : v.toNat < 2 ^ 48 := v.isLt.trans_le (Nat.pow_le_pow_right (by decide) h)
  have hidx := idx.isLt
  have hlow := toNat_place_or_of idx (lo := 48) (toNat_place v (lo := 0) (by omega)) (by omega)
    (by decide)
  rw [BitVec.or_assoc, toNat_place_or_of op hlow (by omega) (by decide)]
  omega

/-- The layout of an opcode and a message of three bytes (R107). -/
theorem toNat_messageWord (cmd note vel : BitVec 8) :
    (place op 56 ||| place cmd 16 ||| place note 8 ||| place vel 0).toNat =
      op.toNat * 2 ^ 56 + cmd.toNat * 2 ^ 16 + note.toNat * 2 ^ 8 + vel.toNat := by
  have hcmd := cmd.isLt; have hnote := note.isLt; have hvel := vel.isLt
  have hnotes := toNat_place_or_of note (lo := 8) (toNat_place vel (lo := 0) (by decide))
    (by omega) (by decide)
  have hlow := toNat_place_or_of cmd (lo := 16) hnotes (by omega) (by decide)
  rw [BitVec.or_assoc, BitVec.or_assoc, toNat_place_or_of op hlow (by omega) (by decide)]
  omega

/-- The layout of an opcode, a flag and two frequencies (R105). -/
theorem toNat_frequencyWord (fc fm : BitVec 24) (r : BitVec 1) :
    (place op 56 ||| place r 48 ||| place fc 24 ||| place fm 0).toNat =
      op.toNat * 2 ^ 56 + r.toNat * 2 ^ 48 + fc.toNat * 2 ^ 24 + fm.toNat := by
  have hr := r.isLt; have hfc := fc.isLt; have hfm := fm.isLt
  have hfreqs := toNat_place_or_of fc (lo := 24) (toNat_place fm (lo := 0) (by decide))
    (by omega) (by decide)
  have hlow := toNat_place_or_of r (lo := 48) hfreqs (by omega) (by decide)
  rw [BitVec.or_assoc, BitVec.or_assoc, toNat_place_or_of op hlow (by omega) (by decide)]
  omega

end

end Sys2Proof

namespace Sys2Proof.Machine

/-- The field check passes an operand that fits on as a field, and refuses any other (R116). -/
theorem bind_fits {α : Type} (n v : Nat) (f : BitVec n → Option α) :
    (fits n v).bind f = if v < 2 ^ n then f (BitVec.ofNat n v) else none := by
  unfold fits; split <;> rfl

/-- What a command that is given only under a condition assembles to, as a number. -/
theorem map_encode_ite {c : Prop} [Decidable c] {x : Option (List Instr)} {y : Option (List Nat)}
    (h : c → x.map (List.map fun i => (encode i).toNat) = y) :
    (if c then x else none).map (List.map fun i => (encode i).toNat) = if c then y else none := by
  split_ifs with hc
  · exact h hc
  · rfl

/-- The word of a single command, as a number. -/
theorem map_encode_singleton {i : Instr} {n : Nat} (h : (encode i).toNat = n) :
    (some [i]).map (List.map fun i => (encode i).toNat) = some [n] := by
  rw [Option.map_some, List.map_singleton, h]

/-- A field holds a number that fits it. -/
theorem toNat_ofNat_of_lt {n v : Nat} (h : v < 2 ^ n) : (BitVec.ofNat n v).toNat = v := by
  rw [BitVec.toNat_ofNat, Nat.mod_eq_of_lt h]

/-- A register's name gives the index that its number gives (R116). -/
theorem regOperand_reg (r : Reg) : regOperand (.reg r) = regOperand (.num r.index.toNat) := by
  cases r <;> rfl

/-- Settles O8: an operand that fits becomes its field and any other is refused, and each layout of
fields is a sum. -/
theorem assemblerWordsAreTheTable : Obligations.AssemblerWordsAreTheTable := by
  refine ⟨rfl, rfl, ?init, ?setfreq, ?setmod, ?noteon, ?noteoff, rfl, rfl, ?wrreg, ?rdreg, ?wrnorm,
    ?rdnorm, fun r val => ?names⟩
  case names => simp only [assemble, asmWrreg, regOperand_reg, and_self]
  all_goals
    intros
    simp only [assemble, asmSetfreq, asmSetmod, asmNoteon, asmNoteoff, asmWrreg, regOperand,
      Option.bind_eq_bind, Option.bind_assoc, Option.bind_some]
    simp only [bind_fits, ite_and, Nat.pow_one]
  case init =>
    refine map_encode_ite fun hsr => map_encode_ite fun hdb => map_encode_singleton ?_
    rw [encode, toNat_indexedWord _ _ _ (by decide), toNat_ofNat_of_lt hsr, toNat_ofNat_of_lt hdb]
    rfl
  case setfreq =>
    refine map_encode_ite fun hfc => map_encode_ite fun hfm => map_encode_ite fun hr =>
      map_encode_singleton ?_
    rw [encode, toNat_frequencyWord, toNat_ofNat_of_lt hfc, toNat_ofNat_of_lt hfm,
      toNat_ofNat_of_lt (n := 1) hr]
    rfl
  case setmod =>
    refine map_encode_ite fun hfm => map_encode_singleton ?_
    rw [encode, toNat_operandWord _ _ (by decide), toNat_ofNat_of_lt hfm, Nat.pow_zero, Nat.mul_one]
    rfl
  case noteon | noteoff =>
    refine map_encode_ite fun hcmd => map_encode_ite fun hnote => map_encode_ite fun hvel =>
      map_encode_singleton ?_
    rw [encode, toNat_messageWord, toNat_ofNat_of_lt hcmd, toNat_ofNat_of_lt hnote,
      toNat_ofNat_of_lt hvel]
    rfl
  case wrreg | wrnorm =>
    refine map_encode_ite fun hidx => map_encode_ite fun hval => map_encode_singleton ?_
    rw [encode, toNat_indexedWord _ _ _ (by decide), toNat_ofNat_of_lt hidx, toNat_ofNat_of_lt hval]
    rfl
  case rdreg | rdnorm =>
    refine map_encode_ite fun hidx => map_encode_singleton ?_
    rw [encode, toNat_operandWord _ _ (by decide), toNat_ofNat_of_lt hidx]
    rfl

/-- Two commands made one after the other, each refused with its operands. -/
theorem bind_pair (x y : Option Instr) :
    (do some [← x, ← y]) =
      (do some [← x]).bind fun a => (do some [← y]).map fun b => a ++ b := by
  cases x <;> cases y <;> rfl

/-- Settles O9: an expansion of two commands is the two assembled and appended, and the others are
their expansions by definition. -/
theorem pseudoCommandsExpand : Obligations.PseudoCommandsExpand :=
  ⟨fun _ => rfl, fun _ _ _ _ => bind_pair _ _, fun _ _ _ => bind_pair _ _, fun _ => rfl,
    fun _ => rfl, rfl⟩

end Sys2Proof.Machine
end

section
/-! PROOFS. What a step does with each kind of arrival (R82, 20_memory; R342, 70_reset_and_hazards),
and the runs that a merge of the two streams gives. -/

namespace Sys2Proof.Machine

/-- A word that decodes is executed (R115). -/
theorem runWord_of_decode_ok {w : Word} {i : Instr} (s : State) (h : decode w = .ok i) :
    runWord w s = exec i s := by
  simp only [runWord, h]

/-- A word that does not decode raises its cause (R301). -/
theorem runWord_of_decode_error {w : Word} {c : Cause} (s : State) (h : decode w = .error c) :
    runWord w s = .next (raiseIllegal (opcodeByte w) c s) := by
  simp only [runWord, h]

section
variable {s : State} {a : Agent} {es : List PortEvent}

/-- A step with a word to deliver runs it on the state less that word. -/
theorem step_word {w : Word} (h : s.arrivals = .word a :: es) (hw : nextWord a s = some w) :
    step s = runWord w (dropWord a es s) := by
  simp only [step, arrival, h, hw]

/-- A step for an agent with nothing left only uses the arrival up (log 1). -/
theorem step_no_word (h : s.arrivals = .word a :: es) (hw : nextWord a s = none) :
    step s = .next (s.setInput s.control s.ticker es) := by
  simp only [step, arrival, h, hw]

/-- The inputs that the reset signal leaves, a word of `lost` being withdrawn (R342; log 4). -/
def afterReset (lost : Option Agent) (es : List PortEvent) (s : State) : State :=
  match lost with
  | none => s.setInput s.control s.ticker es
  | some a => dropWord a es s

/-- A step under the reset signal. -/
theorem step_reset {lost : Option Agent} (h : s.arrivals = .reset lost :: es) :
    step s = .next (applyReset (afterReset lost es s)) := by
  cases lost <;> simp only [step, arrival, h, afterReset]

end

/-- Settles O10: both agents' words are taken off their streams and run alike. -/
theorem stepRunsTheDecodedCommand : Obligations.StepRunsTheDecodedCommand := by
  intro s w ws es a t harr hctl htick
  have hstep : step s = runWord w t := by
    cases a with
    | control =>
      obtain ⟨hs, rfl⟩ := hctl rfl
      rw [step_word harr (by rw [nextWord, hs]; rfl), dropWord_control, hs]
      rfl
    | ticker =>
      obtain ⟨hs, rfl⟩ := htick rfl
      rw [step_word harr (by rw [nextWord, hs]; rfl), dropWord_ticker, hs]
      rfl
  exact ⟨fun i hi => hstep.trans (runWord_of_decode_ok t hi),
    fun c hc => hstep.trans (runWord_of_decode_error t hc)⟩

/-- Settles O11: no arrival, and an arrival whose agent has no word. -/
theorem stepWithoutAWordIsIdle : Obligations.StepWithoutAWordIsIdle := by
  refine ⟨fun s => step_no_arrival, fun s es harr hs => ?_, fun s es harr hs => ?_⟩
  · rw [step_no_word harr (by rw [nextWord, hs]; rfl), hs]
  · rw [step_no_word harr (by rw [nextWord, hs]; rfl), hs]

/-- Settles O12: the reset signal replaces the registers and NORM, and takes at most a lost word off
its stream. -/
theorem resetSignalRestoresTheTable : Obligations.ResetSignalRestoresTheTable := by
  intro s lost es harr
  refine ⟨_, step_reset harr, fun r => readReg_applyReset r _, fun _ => rfl, ?_⟩
  obtain _ | _ | _ := lost <;> exact ⟨⟨rfl, rfl⟩, rfl, rfl, rfl⟩

/-- Settles O13: the table read off the reset state. -/
theorem resetValuesAreTheTable : Obligations.ResetValuesAreTheTable :=
  ⟨rfl, rfl, rfl, rfl, rfl, rfl, rfl, rfl, rfl, rfl, rfl, rfl, rfl, rfl, rfl, rfl, rfl, rfl, rfl,
    rfl, fun _ => rfl⟩

/-- What a step can do, less the inputs it takes: nothing, a word, or the reset. -/
theorem step_cases (s : State) : ∃ c t es, step s = .next (s.setInput c t es) ∨
    (∃ w, step s = runWord w (s.setInput c t es)) ∨
      step s = .next (applyReset (s.setInput c t es)) := by
  obtain ⟨c, t, es, h⟩ | ⟨w, c, t, es, h⟩ | ⟨c, t, es, h⟩ := arrival_cases s
  · exact ⟨c, t, es, .inl (by rw [step, h])⟩
  · exact ⟨c, t, es, .inr (.inl ⟨w, by rw [step, h]⟩)⟩
  · exact ⟨c, t, es, .inr (.inr (by rw [step, h]))⟩

/-- Settles O14: an idle step and a reset answer at once, and every word answers. -/
theorem everyStepAnswersNext : Obligations.EveryStepAnswersNext := by
  intro s
  obtain ⟨c, t, es, h | ⟨w, h⟩ | h⟩ := step_cases s
  · exact ⟨_, h⟩
  · obtain ⟨u, hu, -⟩ := runWord_cases w (s.setInput c t es)
    exact ⟨u, h.trans hu⟩
  · exact ⟨_, h⟩

/-- Settles O16: the zero word decodes as NOP. -/
theorem nopHasNoEffect : Obligations.NopHasNoEffect :=
  fun s => ⟨rfl, runWord_of_decode_ok s (decode_encode .nop)⟩

/-- Words after one that is executed. -/
theorem runWords_cons {w : Word} {s t : State} (ws : List Word) (h : runWord w s = .next t) :
    runWords (w :: ws) s = runWords ws t := by
  simp only [runWords, h]

/-- What a run delivered: the words `ws`, a merge of the parts that the streams of `s` have lost on
the way to `u`. -/
def Delivered (s u : State) : Prop :=
  ∃ c t ws : List Word, s.control = c ++ u.control ∧ s.ticker = t ++ u.ticker ∧
    u.arrivals = [] ∧ IsMerge c t ws ∧ runWords ws (s.setInput u.control u.ticker []) = .next u

/-- A word delivered before the rest. -/
theorem Delivered.cons {s v u : State} {a : Agent} {es : List PortEvent} {w : Word}
    (h : Delivered v u) (hw : nextWord a s = some w) (hv : runWord w (dropWord a es s) = .next v) :
    Delivered s u := by
  obtain ⟨c, t, ws, hc, ht, hnone, hmerge, hrun⟩ := h
  obtain ⟨hcv, htv, -⟩ := runWord_keepsInputs hv
  have hfirst := runWord_setInput hv u.control u.ticker []
  cases a with
  | control =>
    obtain ⟨cs, hs⟩ := List.head?_eq_some_iff.mp hw
    refine ⟨w :: c, t, w :: ws, ?_, htv ▸ ht, hnone, .control w hmerge, ?_⟩
    · rw [hs, List.cons_append, ← hc, hcv, dropWord_control, State.setInput_control, hs]; rfl
    · exact (runWords_cons ws hfirst).trans hrun
  | ticker =>
    obtain ⟨cs, hs⟩ := List.head?_eq_some_iff.mp hw
    refine ⟨c, w :: t, w :: ws, hcv ▸ hc, ?_, hnone, .ticker w hmerge, ?_⟩
    · rw [hs, List.cons_append, ← ht, htv, dropWord_ticker, State.setInput_ticker, hs]; rfl
    · exact (runWords_cons ws hfirst).trans hrun

/-- A run over arrivals of words delivers a merge of the two streams. -/
theorem run_delivered {es : List PortEvent} {s u : State} (hes : s.arrivals = es)
    (hword : ∀ e ∈ es, ∃ a, e = .word a) (hrun : Host.Core.run core es.length s = .next u) :
    Delivered s u := by
  induction es generalizing s with
  | nil =>
    cases hrun
    refine ⟨[], [], [], rfl, rfl, hes, .done, ?_⟩
    rw [← hes]; rfl
  | cons e es ih =>
    obtain ⟨⟨a, rfl⟩, hrest⟩ := List.forall_mem_cons.mp hword
    cases hw : nextWord a s with
    | none =>
      rw [List.length_cons, run_succ (step_no_word hes hw)] at hrun
      exact ih (s := s.setInput s.control s.ticker es) rfl hrest hrun
    | some w =>
      obtain ⟨v, hv, -⟩ := runWord_cases w (dropWord a es s)
      obtain ⟨-, -, hvs⟩ := runWord_keepsInputs hv
      rw [List.length_cons, run_succ ((step_word hes hw).trans hv)] at hrun
      refine (ih (hvs.trans ?_) hrest hrun).cons hw hv
      cases a <;> rfl

/-- The first word of a run, with the rest of its merge still to come. -/
theorem run_cons {a : Agent} {c t c' t' ws : List Word} {w : Word} {es : List PortEvent} {s : State}
    (hw : nextWord a (s.setInput c' t' (.word a :: es)) = some w)
    (hdrop : dropWord a es (s.setInput c' t' (.word a :: es)) = s.setInput c t es)
    (ih : ∀ s : State, ∃ u, Host.Core.run core ws.length (s.setInput c t es) = .next u ∧
      runWords ws (s.setInput [] [] []) = .next u) :
    ∃ u, Host.Core.run core (ws.length + 1) (s.setInput c' t' (.word a :: es)) = .next u ∧
      runWords (w :: ws) (s.setInput [] [] []) = .next u := by
  obtain ⟨v, hv, -⟩ := runWord_cases w s
  obtain ⟨u, hrun, hwords⟩ := ih v
  refine ⟨u, ?_, (runWords_cons ws (runWord_setInput hv [] [] [])).trans hwords⟩
  rw [run_succ ((step_word rfl hw).trans (hdrop ▸ runWord_setInput hv c t es))]
  exact hrun

/-- Every merge is delivered by the arrivals that name the agent of each of its words. -/
theorem arrivals_of_isMerge {c t ws : List Word} (h : IsMerge c t ws) :
    ∃ es : List PortEvent, es.length = ws.length ∧ (∀ e ∈ es, ∃ a, e = .word a) ∧
      ∀ s : State, ∃ u, Host.Core.run core ws.length (s.setInput c t es) = .next u ∧
        runWords ws (s.setInput [] [] []) = .next u := by
  induction h with
  | done => exact ⟨[], rfl, List.forall_mem_nil _, fun s => ⟨_, rfl, rfl⟩⟩
  | control w _ ih =>
    obtain ⟨es, hlen, hword, hrun⟩ := ih
    exact ⟨.word .control :: es, congrArg (· + 1) hlen,
      List.forall_mem_cons.mpr ⟨⟨_, rfl⟩, hword⟩, fun s => run_cons rfl rfl hrun⟩
  | ticker w _ ih =>
    obtain ⟨es, hlen, hword, hrun⟩ := ih
    exact ⟨.word .ticker :: es, congrArg (· + 1) hlen,
      List.forall_mem_cons.mpr ⟨⟨_, rfl⟩, hword⟩, fun s => run_cons rfl rfl hrun⟩

/-- Settles O15: each half by induction, over the arrivals and over the merge. -/
theorem portDeliversExactlyTheMerges : Obligations.PortDeliversExactlyTheMerges :=
  ⟨fun _ _ hword hrun => run_delivered rfl hword hrun, fun _ _ _ => arrivals_of_isMerge⟩

end Sys2Proof.Machine
end

section
/-! PROOFS. The engine's invariants (R56, 10_state): they hold at reset, and no operation, command,
word or reset signal breaks them. -/

namespace Sys2Proof.Machine

/-- Settles O54: each invariant evaluated on the reset state. -/
theorem invariantHoldsAtReset : Obligations.InvariantHoldsAtReset := by
  constructor <;> decide

variable {s t : State}

/-- OUT_SCALE of a legal depth fits its register (R141, 40_init). -/
theorem toNat_outScaleOf {db : BitVec 8} (h : db.toNat ≤ 16) :
    (outScaleOf db).toNat = (2 ^ db.toNat - 1) / 2 := by
  have hpow : 2 ^ db.toNat ≤ 2 ^ 16 := Nat.pow_le_pow_right (by decide) h
  rw [outScaleOf, BitVec.toNat_ofNat, Nat.mod_eq_of_lt (by omega)]

/-- A legal depth fits its register (R43, R142). -/
theorem toNat_setWidth_depth {db : BitVec 8} (h : db.toNat ≤ 16) :
    (db.setWidth 5).toNat = db.toNat := by
  rw [BitVec.toNat_setWidth, Nat.mod_eq_of_lt (by omega)]

/-- What SUSTAIN_LEVEL stores, as a number (R37, 10_state). -/
theorem toNat_clampLevel (v : Data) : (clampLevel v).toNat = min v.toNat 65536 := by
  rw [clampLevel, Config.one_eq, BitVec.toNat_ofNat, Nat.mod_eq_of_lt (by omega)]

/-- Attack keeps a level within ENV_MAX there (R214). -/
theorem attackLevel_le {p : Config.EnvParams} (h : s.envLevel.toNat ≤ p.max) :
    attackLevel p s ≤ p.max := by
  rw [attackLevel_eq]
  split
  · exact min_le_right _ _
  · exact h

namespace EngineInv

section
variable (h : EngineInv s)
include h

theorem setInput (c t : List Word) (es : List PortEvent) : EngineInv (s.setInput c t es) :=
  { h with }

/-- IllegalCommand leaves one of the legal statuses (R302). -/
theorem raiseIllegal (op : BitVec 8) (c : Cause) : EngineInv (raiseIllegal op c s) := by
  have hstatus : EngineInv (s.setStatus (statusOf c.code)) :=
    { h with statusForm := statusLegal_statusOf c }
  unfold Machine.raiseIllegal
  split
  · exact { hstatus with }
  · exact hstatus

/-- A register write stores a bounded level or a cleared status (R37, R39). -/
theorem writeReg {r : Reg} {v : BitVec 32} (hw : writeReg r v s = some t) : EngineInv t := by
  obtain ⟨-, rfl⟩ | ⟨-, rfl⟩ | ⟨-, rfl⟩ | ⟨-, rfl⟩ | ⟨-, rfl⟩ | ⟨-, rfl⟩ := writeReg_some hw
  case inr.inr.inr.inl =>
    exact { h with sustainBound := by simp [toNat_clampLevel] }
  case inr.inr.inr.inr.inr =>
    obtain ⟨-, hclear⟩ | ⟨-, hkeep⟩ := writeStatus_cases v s
    · rw [hclear]; exact { h with statusForm := rfl }
    · rw [hkeep]; exact h
  all_goals exact { h with }

/-- INIT sets the scale with the depth (R140, R141). -/
theorem init {sr : BitVec 32} {db : BitVec 8} (hl : initLegal sr db = true) :
    EngineInv ((s.setFormat sr (db.setWidth 5) (outScaleOf db)).setPhase 0#32 0#32) := by
  obtain ⟨hrate, hlow, hhigh⟩ := initLegal_iff.mp hl
  have hdepth := toNat_setWidth_depth hhigh
  exact { h with
    rateNonzero := hrate
    depthLow := hdepth.symm ▸ hlow
    depthHigh := hdepth.symm ▸ hhigh
    scaleOfDepth := (toNat_outScaleOf hhigh).trans (by rw [← hdepth]; rfl) }

/-- The triple of an envelope step keeps its own invariants (R210, R218, R224). -/
theorem setEnv {m : EnvMode} {l : BitVec 17} {n : BitVec 32} (hl : l.toNat ≤ 65536)
    (hm : m ≠ .release) (hn : m = .sustain → n = 0#32) : EngineInv (s.setEnv m l n) :=
  { h with levelBound := hl, notRelease := hm, sustainCounter := hn }

/-- An envelope step keeps the level within 1.0, the level it starts from or the bound it is cut to
being so (R224). -/
theorem envStep : EngineInv (envStep Config.env s) := by
  cases hm : s.envMode with
  | attack =>
    have hlevel : (BitVec.ofNat 17 (attackLevel Config.env s)).toNat ≤ 65536 :=
      (toNat_ofNat_of_lt (attackLevel_lt Config.env_legal)).trans_le (attackLevel_le h.levelBound)
    rw [envStep_attack hm, attackStep]
    split
    · exact h.setEnv hlevel nofun nofun
    · exact h.setEnv hlevel nofun nofun
  | decay =>
    have hlevel : (BitVec.ofNat 17 (decayLevel Config.env s)).toNat ≤ 65536 :=
      (toNat_ofNat_of_lt decayLevel_lt).trans_le (decayLevel_le.trans h.levelBound)
    rw [envStep_decay hm, decayStep]
    split
    · exact h.setEnv hlevel nofun fun _ => rfl
    · exact h.setEnv hlevel nofun nofun
  | sustain =>
    rw [envStep_sustain hm]
    exact h.setEnv h.sustainBound h.notRelease h.sustainCounter
  | release => exact absurd hm h.notRelease

/-- The sample of a tick writes no register that the invariants speak of (R191). -/
theorem nextSample (a : BitVec 16) : EngineInv (nextSample a s) := by
  cases h
  constructor <;> simpa

end

end EngineInv

/-- No command breaks the invariants. -/
theorem Effect.engineInv {i : Instr} (he : Effect i s t) (h : EngineInv s) : EngineInv t := by
  cases he with
  | illegal => exact h.raiseIllegal _ _
  | init _ hl => exact h.init hl
  | noteon =>
    have henv : EngineInv (s.setEnv .attack 0#17 0#32) := h.setEnv (by decide) nofun nofun
    exact { henv with }
  | tickActive => exact h.envStep.nextSample _
  | wrreg _ hw => exact h.writeReg hw
  | wrnorm _ hl =>
    exact { h with normForm := Memory.wf_write _ _ _ (of_decide_eq_true hl) h.normForm }
  | _ => exact { h with }

/-- No word breaks the invariants. -/
theorem runWord_engineInv {w : Word} (hw : runWord w s = .next t) (h : EngineInv s) :
    EngineInv t := by
  obtain ⟨u, hu, ⟨c, -, rfl⟩ | ⟨i, -, he⟩⟩ := runWord_cases w s <;> cases hw.symm.trans hu
  · exact h.raiseIllegal _ c
  · exact he.engineInv h

/-- Settles O55: the inputs are not spoken of, a word keeps the invariants, and the reset signal
restores them. -/
theorem stepKeepsTheInvariant : Obligations.StepKeepsTheInvariant := by
  intro s t h hstep
  obtain ⟨c, k, es, hs | ⟨w, hs⟩ | hs⟩ := step_cases s <;> rw [hs] at hstep
  · cases hstep; exact h.setInput c k es
  · exact runWord_engineInv hstep (h.setInput c k es)
  · cases hstep; exact { invariantHoldsAtReset with }

end Sys2Proof.Machine
end

section
/-! PROOFS. What each operation on the registers writes and leaves alone, and the frames of the
commands composed from them (R140, R161, R162, R240, R245, R275). -/

namespace Sys2Proof.Machine

variable {s t u : State} {rs rs' : List Reg}

/-- Frames compose: what neither part writes is kept by both. -/
theorem WritesOnly.trans (h : WritesOnly rs s t) (h' : WritesOnly rs' t u) :
    WritesOnly (rs ++ rs') s u := by
  obtain ⟨hregs, hnorm, ⟨hdac, hrsp⟩, hctl, htick, harr⟩ := h
  obtain ⟨hregs', hnorm', ⟨hdac', hrsp'⟩, hctl', htick', harr'⟩ := h'
  refine ⟨fun r hr => ?_, fun k => (hnorm' k).trans (hnorm k),
    ⟨hdac'.trans hdac, hrsp'.trans hrsp⟩, hctl'.trans hctl, htick'.trans htick, harr'.trans harr⟩
  rw [List.mem_append, not_or] at hr
  exact (hregs' r hr.2).trans (hregs r hr.1)

section
variable (s : State)

theorem writesOnly_setFormat (rate : BitVec 32) (bits : BitVec 5) (scale : BitVec 15) :
    WritesOnly [.sampleRate, .dacBits, .outScale] s (s.setFormat rate bits scale) :=
  writesOnly_of (fun r hr => by cases r <;> simp_all [readReg]) rfl rfl rfl ⟨rfl, rfl, rfl⟩

theorem writesOnly_setPhase (car mod : BitVec 32) :
    WritesOnly [.carAcc, .modAcc] s (s.setPhase car mod) :=
  writesOnly_of (fun r hr => by cases r <;> simp_all [readReg]) rfl rfl rfl ⟨rfl, rfl, rfl⟩

theorem writesOnly_setCarStep (v : BitVec 32) :
    WritesOnly [.carStep] s (s.setCarStep v) :=
  writesOnly_of (fun r hr => by cases r <;> simp_all [readReg]) rfl rfl rfl ⟨rfl, rfl, rfl⟩

theorem writesOnly_setModStep (v : BitVec 32) :
    WritesOnly [.modStep] s (s.setModStep v) :=
  writesOnly_of (fun r hr => by cases r <;> simp_all [readReg]) rfl rfl rfl ⟨rfl, rfl, rfl⟩

theorem writesOnly_setEnv (m : EnvMode) (l : BitVec 17) (n : BitVec 32) :
    WritesOnly [.envMode, .envLevel, .envStepcnt] s (s.setEnv m l n) :=
  writesOnly_of (fun r hr => by cases r <;> simp_all [readReg]) rfl rfl rfl ⟨rfl, rfl, rfl⟩

theorem writesOnly_setActiveNote (v : BitVec 8) :
    WritesOnly [.activeNote] s (s.setActiveNote v) :=
  writesOnly_of (fun r hr => by cases r <;> simp_all [readReg]) rfl rfl rfl ⟨rfl, rfl, rfl⟩

theorem writesOnly_setNoteState (v : BitVec 25) :
    WritesOnly [.noteState] s (s.setNoteState v) :=
  writesOnly_of (fun r hr => by cases r <;> simp_all [readReg]) rfl rfl rfl ⟨rfl, rfl, rfl⟩

end

/-- A response changes nothing that a register or an entry reads. -/
theorem keeps_emitRsp (s : State) (v : BitVec 32) :
    KeepsRegs [] s (s.emitRsp v) ∧ KeepsNorm s (s.emitRsp v) ∧ (s.emitRsp v).dacOut = s.dacOut ∧
      KeepsInputs s (s.emitRsp v) :=
  ⟨fun r _ => readReg_emitRsp s r v, fun _ => rfl, rfl, rfl, rfl, rfl⟩

/-- The scale of a depth is one short of half its range (R141). -/
theorem half_pred_two_pow {n : Nat} (h : 1 ≤ n) : (2 ^ n - 1) / 2 + 1 = 2 ^ (n - 1) := by
  obtain ⟨m, rfl⟩ := Nat.exists_eq_add_of_le' h
  have hpos : 0 < 2 ^ m := by positivity
  rw [Nat.add_sub_cancel, Nat.pow_succ]
  omega

/-- Settles O17: past the operand check the two updates of INIT, framed one after the other. -/
theorem initSetsRateDepthAndScale : Obligations.InitSetsRateDepthAndScale := by
  intro sr db s hrate hlow hhigh
  have hscale : (readReg .outScale (s.setFormat sr (db.setWidth 5) (outScaleOf db))).toNat =
      (2 ^ db.toNat - 1) / 2 :=
    (BitVec.toNat_setWidth_of_le (by decide)).trans (toNat_outScaleOf hhigh)
  refine ⟨_, exec_init_of_legal s (initLegal_iff.mpr ⟨hrate, hlow, hhigh⟩), rfl, ?depth, hscale,
    (congrArg (· + 1) hscale).trans (half_pred_two_pow hlow), rfl, rfl,
    (writesOnly_setFormat s _ _ _).trans (writesOnly_setPhase _ _ _)⟩
  case depth => exact (BitVec.toNat_setWidth_of_le (by decide)).trans (toNat_setWidth_depth hhigh)

/-- Settles O20: with FINE set both the frequency and the divisor are ten times what they are with
FINE clear. -/
theorem fineModeKeepsTheStep : Obligations.FineModeKeepsTheStep := by
  intro f f10 s hrate hf
  have hfine : phaseDivisor (s.setCtrl (s.ctrl ||| 8#4)) = 10 * s.sampleRate.toNat := by
    simp [phaseDivisor_eq, Nat.mul_comm]
  have hcoarse : phaseDivisor (s.setCtrl (s.ctrl &&& 7#4)) = s.sampleRate.toNat := by
    simp [phaseDivisor_eq]
  apply BitVec.eq_of_toNat_eq
  rw [toNat_phaseStep f10 (by exact hrate), toNat_phaseStep f (by exact hrate), hfine, hcoarse, hf,
    Nat.mul_assoc, Nat.mul_div_mul_left _ _ (by decide)]

/-- The step of a frequency where the divisor has the value `d` (R160). -/
theorem toNat_phaseStep_of (f : BitVec 24) {d : Nat} (hrate : 1 ≤ s.sampleRate.toNat)
    (hd : d = s.sampleRate.toNat * (if s.ctrl.getLsbD 3 then 10 else 1)) :
    (phaseStep f s).toNat = f.toNat * 2 ^ 32 / d % 2 ^ 32 := by
  rw [toNat_phaseStep f hrate, phaseDivisor_eq, hd]

/-- Settles O21: the updates of each branch, framed one after the other. -/
theorem setfreqSetsTheSteps : Obligations.SetfreqSetsTheSteps := by
  intro fc fm s d hrate hd
  refine ⟨⟨_, rfl, toNat_phaseStep_of fc hrate hd, toNat_phaseStep_of fm hrate hd, rfl, rfl, ?_⟩,
    ⟨_, rfl, toNat_phaseStep_of fm hrate hd, writesOnly_setModStep s _⟩⟩
  exact ((writesOnly_setCarStep s _).trans (writesOnly_setModStep _ _)).trans
    (writesOnly_setPhase _ _ _)

/-- Settles O22: SETMOD is the update that SETFREQ with R = 0 makes. -/
theorem setmodSetsTheModulatorStep : Obligations.SetmodSetsTheModulatorStep := by
  intro fm s d hrate hd
  exact ⟨_, rfl, toNat_phaseStep_of fm hrate hd, writesOnly_setModStep s _, fun _ => rfl⟩

/-- Settles O23: the three updates of NOTEON, framed one after the other, and NOTE_STATE as the sum
of its fields. -/
theorem noteonRestartsTheEnvelope : Obligations.NoteonRestartsTheEnvelope := by
  intro cmd note vel s
  refine ⟨_, rfl, rfl, rfl, rfl, BitVec.toNat_setWidth_of_le (by decide),
    (BitVec.toNat_setWidth_of_le (by decide)).trans (toNat_noteStateOf true cmd note vel),
    noteStateOf_active true cmd note vel, ?_⟩
  exact ((writesOnly_setEnv s _ _ _).trans (writesOnly_setActiveNote _ _)).trans
    (writesOnly_setNoteState _ _)

/-- Settles O24: NOTE_STATE as the sum of its fields, with ACTIVE as the latched note decides. -/
theorem noteoffClosesTheGateOfItsNote : Obligations.NoteoffClosesTheGateOfItsNote := by
  intro cmd note vel s
  refine ⟨_, rfl, fun hnote => ?_, fun hnote => ?_, writesOnly_setNoteState s _⟩
  · refine (BitVec.toNat_setWidth_of_le (by decide)).trans ?_
    rw [State.setNoteState_noteState, if_pos hnote, toNat_noteStateOf, activeAfterOff]
    simp
  · refine (BitVec.toNat_setWidth_of_le (by decide)).trans ?_
    rw [State.setNoteState_noteState, if_neg hnote, toNat_noteStateOf]

end Sys2Proof.Machine
end

section
/-! PROOFS. The register and table access commands (R271 to R276, 45_register_access): each legal
access in one equation, and the raise of an illegal one. -/

namespace Sys2Proof.Machine

section
variable {idx : BitVec 8} {r : Reg} {s t : State}

/-- WRREG of a writable register (R271). -/
theorem exec_wrreg_of_writeReg {v : BitVec 32} (hr : Reg.ofIndex idx = some r)
    (hw : writeReg r v s = some t) : exec (.wrreg idx v) s = .next t := by
  simp only [exec, execWrreg, hr, Option.bind_some, hw]

/-- RDREG of a register (R272). -/
theorem exec_rdreg_of_ofIndex (s : State) (hr : Reg.ofIndex idx = some r) :
    exec (.rdreg idx) s = .next (s.emitRsp (readReg r s)) := by
  simp only [exec, execRdreg, hr]

theorem normLegal_iff : normLegal idx = true ↔ idx.toNat ≤ 99 := by
  rw [normLegal, decide_eq_true_iff, Config.normLevels_eq, Nat.lt_succ_iff]

/-- WRNORM of an entry (R273). -/
theorem exec_wrnorm_of_le (v : BitVec 24) (s : State) (h : idx.toNat ≤ 99) :
    exec (.wrnorm idx v) s = .next (s.setNorm (s.norm.write idx.toNat v)) := by
  simp only [exec, execWrnorm, if_pos (normLegal_iff.mpr h)]

/-- RDNORM of an entry (R274). -/
theorem exec_rdnorm_of_le (s : State) (h : idx.toNat ≤ 99) :
    exec (.rdnorm idx) s = .next (s.emitRsp ((s.norm.read idx.toNat).setWidth 32)) := by
  simp only [exec, execRdnorm, if_pos (normLegal_iff.mpr h)]

/-- An illegal command that reads nothing raises its cause and writes STATUS alone (R301). -/
theorem exec_illegal_write {i : Instr} {c : Cause} (s : State) (hc : i.operandCause = some c)
    (hread : isReadOpcode i.opcode.byte = false) : ∃ t, exec i s = .next t ∧ t.ill = true ∧
      t.cause = c.code ∧ WritesOnly [.status] s t := by
  obtain ⟨hill, hcause⟩ := raiseIllegal_record i.opcode.byte c s
  exact ⟨_, exec_illegal s hc, hill, hcause, raiseIllegal_writesOnly c s hread⟩

/-- An illegal read raises its cause, answers 0 and changes nothing but STATUS (R276, R301). -/
theorem exec_illegal_read {i : Instr} {c : Cause} (s : State) (hc : i.operandCause = some c)
    (hread : isReadOpcode i.opcode.byte = true) : ∃ t, exec i s = .next t ∧
      t.rspOut = s.rspOut ++ [0#32] ∧ t.ill = true ∧ t.cause = c.code ∧ KeepsRegs [.status] s t ∧
      KeepsNorm s t ∧ t.dacOut = s.dacOut ∧ KeepsInputs s t := by
  obtain ⟨hill, hcause⟩ := raiseIllegal_record i.opcode.byte c s
  exact ⟨_, exec_illegal s hc, by rw [raiseIllegal_rspOut, if_pos hread], hill, hcause,
    fun r hr => readReg_raiseIllegal s _ c (mt List.mem_singleton.mpr hr),
    fun k => by rw [raiseIllegal_norm], raiseIllegal_dacOut s _ c, by simp [KeepsInputs]⟩

/-- WRREG of a writable register, by what the register then holds and the frame of the write. -/
theorem exec_wrreg_stores {v : BitVec 32} {P : State → Prop} (hr : Reg.ofIndex idx = some r)
    (hw : writeReg r v s = some t) (hP : P t) :
    ∃ t, exec (.wrreg idx v) s = .next t ∧ P t ∧ WritesOnly [r] s t :=
  ⟨t, exec_wrreg_of_writeReg hr hw, hP, writeReg_writesOnly hw⟩

end

/-- A field of `n` bits reads as the value's low `n` bits (R34 to R36). -/
theorem toNat_lowBits (v : BitVec 32) {n : Nat} (h : n ≤ 32) :
    ((v.setWidth n).setWidth 32).toNat = v.toNat % 2 ^ n :=
  (BitVec.toNat_setWidth_of_le h).trans (BitVec.toNat_setWidth n v)

/-- Settles O27: each write is its register's, which stores its field of the value. -/
theorem wrregStoresTheField : Obligations.WrregStoresTheField :=
  fun v _ => ⟨exec_wrreg_stores rfl rfl (toNat_lowBits v (by decide)),
    exec_wrreg_stores rfl rfl (toNat_lowBits v (by decide)),
    exec_wrreg_stores rfl rfl (toNat_lowBits v (by decide)),
    exec_wrreg_stores rfl rfl
      ((BitVec.toNat_setWidth_of_le (by decide)).trans (toNat_clampLevel v)),
    exec_wrreg_stores rfl rfl rfl⟩

/-- Settles O28: the two cases of the write to STATUS. -/
theorem statusIsWriteOneToClear : Obligations.StatusIsWriteOneToClear := by
  intro v s
  have hw : writeReg .status v s = some (writeStatus v s) := rfl
  refine ⟨_, exec_wrreg_of_writeReg rfl hw, fun hset => ?_, fun hclear => ?_⟩
  · have hframe := writeReg_writesOnly hw
    rw [writeStatus, if_pos hset] at hframe ⊢
    exact ⟨rfl, by simp [State.ill], by simp [State.cause], hframe⟩
  · rw [writeStatus, hclear]; rfl

/-- Settles O29: the operand check refuses every index but the six inputs'. -/
theorem wrregToReadOnlyIsIllegal : Obligations.WrregToReadOnlyIsIllegal := by
  intro idx v s hidx
  exact exec_illegal_write s ((operandCause_wrreg idx v).trans (if_pos hidx)) rfl

/-- A second raise of the same cause under an opcode that reads nothing changes nothing more. -/
theorem raiseIllegal_idem {op : BitVec 8} (c : Cause) (s : State) (h : isReadOpcode op = false) :
    raiseIllegal op c (raiseIllegal op c s) = raiseIllegal op c s := by
  simp only [raiseIllegal, h]; rfl

/-- A second equal write to a register changes nothing more (R80, 20_memory). -/
theorem writeReg_idem {r : Reg} {v : BitVec 32} {s t : State} (hw : writeReg r v s = some t) :
    writeReg r v t = some t := by
  obtain ⟨rfl, rfl⟩ | ⟨rfl, rfl⟩ | ⟨rfl, rfl⟩ | ⟨rfl, rfl⟩ | ⟨rfl, rfl⟩ | ⟨rfl, rfl⟩ :=
    writeReg_some hw
  case inr.inr.inr.inr.inr =>
    simp only [writeReg, writeStatus, Option.some.injEq]
    split <;> rfl
  all_goals rfl

/-- Settles O30: an illegal write raises the same cause again, and a legal one stores the same
field. -/
theorem registerWritesAreIdempotent : Obligations.RegisterWritesAreIdempotent := by
  intro idx v s
  obtain ⟨t, ht, he⟩ := exec_next (.wrreg idx v) s
  refine ⟨t, ht, ?_⟩
  cases he with
  | illegal _ hc => rw [exec_illegal _ hc, raiseIllegal_idem _ _ rfl]
  | wrreg hr hw => exact exec_wrreg_of_writeReg hr (writeReg_idem hw)

/-- Settles O31: each row names its register and reads its field, and RDREG answers with what the
register reads as. -/
theorem rdregAnswersWithTheRegister : Obligations.RdregAnswersWithTheRegister := by
  refine ⟨fun s p hp => ?rows, fun idx hidx => ?named, fun idx s hidx => ?undefined⟩
  case rows =>
    have hrow : p.2.1.index = p.1 ∧ readReg p.2.1 s = p.2.2 := by
      revert p
      simp only [List.forall_mem_cons]
      refine ⟨⟨rfl, rfl⟩, ⟨rfl, rfl⟩, ⟨rfl, rfl⟩, ⟨rfl, rfl⟩, ⟨rfl, rfl⟩, ⟨rfl, rfl⟩, ⟨rfl, rfl⟩,
        ⟨rfl, rfl⟩, ⟨rfl, rfl⟩, ⟨rfl, rfl⟩, ⟨rfl, rfl⟩, ⟨rfl, rfl⟩, ⟨rfl, rfl⟩, ⟨rfl, rfl⟩,
        ⟨rfl, rfl⟩, ⟨rfl, ?_⟩, ⟨rfl, rfl⟩, ⟨rfl, rfl⟩, ⟨rfl, rfl⟩, ⟨rfl, rfl⟩,
        List.forall_mem_nil _⟩
      cases h : s.envMode <;> simp [readReg, h, EnvMode.code]
    obtain ⟨hindex, hread⟩ := hrow
    have hexec := exec_rdreg_of_ofIndex s (Reg.ofIndex_index p.2.1)
    rw [hindex, hread] at hexec
    exact ⟨hindex, hread, _, hexec, rfl, keeps_emitRsp s _⟩
  case named =>
    obtain ⟨r, hr⟩ := ofIndex_some hidx
    exact ⟨r, index_of_ofIndex hr⟩
  case undefined =>
    exact exec_illegal_read s ((operandCause_rdreg idx).trans (if_pos hidx)) rfl

/-- Settles O32: a write to the RAM is read back and leaves every other entry. -/
theorem wrnormWritesOneEntry : Obligations.WrnormWritesOneEntry := by
  intro idx v s
  refine ⟨fun hidx => ⟨_, exec_wrnorm_of_le v s hidx, Memory.read_write_same _ _ v,
    fun k hk => Memory.read_write_other _ v hk, fun r _ => readReg_setNorm s r _, ⟨rfl, rfl⟩,
    rfl, rfl, rfl⟩, fun hidx => ?_⟩
  exact exec_illegal_write s ((operandCause_wrnorm idx v).trans (if_pos hidx)) rfl

/-- Settles O33: RDNORM answers with the entry, which a WRNORM before it has written. -/
theorem rdnormAnswersWithTheEntry : Obligations.RdnormAnswersWithTheEntry := by
  intro idx s
  refine ⟨fun hidx => ⟨_, exec_rdnorm_of_le s hidx, rfl, keeps_emitRsp s _⟩,
    fun hidx v => ⟨_, _, exec_wrnorm_of_le v s hidx, exec_rdnorm_of_le _ hidx, ?_⟩,
    fun hidx => exec_illegal_read s ((operandCause_rdnorm idx).trans (if_pos hidx)) rfl⟩
  rw [State.emitRsp_rspOut, State.setNorm_norm, Memory.read_write_same]
  rfl

end Sys2Proof.Machine
end

section
/-! PROOFS. The sample datapath as a whole (R17, 00_scope; R180 to R191, 42_sample_datapath): the
bounds of its values, the codes that the range check accepts, and what an active tick emits. -/

namespace Sys2Proof.Machine

/-- The range check in R189's numbers. -/
theorem codeInRange_iff {bits : BitVec 5} {code : Int} :
    codeInRange bits code = true ↔ 0 ≤ code ∧ code ≤ 2 ^ bits.toNat - 1 := by
  rw [codeInRange, Bool.and_eq_true, decide_eq_true_iff, decide_eq_true_iff]
  push_cast [Nat.one_le_two_pow]
  rfl

/-- Scaling a sample within full scale gives no more than the factor. -/
theorem abs_scaleQ16_le {y : Int} (hy : |y| ≤ 65536) (f : Nat) : |scaleQ16 y f| ≤ f := by
  rw [scaleQ16_eq, abs_tdiv _ (by norm_num), abs_mul, Nat.abs_cast]
  refine Int.ediv_le_of_le_mul (by norm_num) ?_
  rw [Int.mul_comm]
  exact mul_le_mul_of_nonneg_left hy (by positivity)

/-- Settles O42: the scaled sample is no larger than OUT_SCALE, twice which is two short of the
depth's range. -/
theorem fullScaleCodesAreInRange : Obligations.FullScaleCodesAreInRange := by
  intro s yn hinv hyn
  obtain ⟨hlo, hhi⟩ := abs_le.mp (abs_scaleQ16_le hyn s.outScale.toNat)
  have hhalf : s.outScale.toNat + 1 = 2 ^ (s.dacBits.toNat - 1) := by
    rw [hinv.scaleOfDepth]
    exact half_pred_two_pow hinv.depthLow
  have hfull : 2 * s.outScale.toNat + 2 = 2 ^ s.dacBits.toNat := by
    have hdepth : 1 ≤ s.dacBits.toNat := hinv.depthLow
    calc 2 * s.outScale.toNat + 2 = 2 ^ (s.dacBits.toNat - 1) * 2 := by omega
      _ = 2 ^ s.dacBits.toNat := by rw [← Nat.pow_succ, Nat.succ_eq_add_one,
          Nat.sub_add_cancel hdepth]
  have hcode : 0 ≤ outputCode s.outScale yn ∧ outputCode s.outScale yn ≤ 2 * s.outScale.toNat := by
    rw [outputCode]; omega
  refine ⟨hcode.1, hcode.2, hfull.le, codeInRange_iff.mpr ⟨hcode.1, ?_⟩⟩
  have hfull' : 2 * (s.outScale.toNat : Int) + 2 = 2 ^ s.dacBits.toNat := by exact_mod_cast hfull
  omega

/-- The raw sample fits 33 bits and a sign (R185). -/
theorem abs_rawSample_lt (a : BitVec 16) (s : State) : |rawSample a s| < 2 ^ 33 :=
  calc |rawSample a s| ≤ dsfQuotient a 65536 65536 :=
        abs_dsfQuotient_le_peak a (abs_sine_le _) (cosine_bound _).2
    _ ≤ 8589869056 := dsfQuotient_peak_le a
    _ < 2 ^ 33 := by norm_num

/-- The normalised sample fits 41 bits and a sign, scaled or not (R187). -/
theorem abs_normalise_lt {a : BitVec 16} {y : Int} (s : State) (hy : |y| < 2 ^ 33) :
    |normalise a y s| < 2 ^ 41 := by
  cases hctrl : s.ctrl.getLsbD 2 with
  | true => rw [normalise_on y hctrl]; exact abs_scaleQ16_lt (abs_mul_toNat_lt _ hy)
  | false => rw [normalise_off y hctrl]; exact hy.trans (by norm_num)

/-- So does its code (R188). -/
theorem abs_outputCode_lt {yn : Int} (scale : BitVec 15) (hyn : |yn| < 2 ^ 41) :
    |outputCode scale yn| < 2 ^ 41 := by
  have hscaled : |scaleQ16 yn scale.toNat| < 2 ^ 40 := abs_scaleQ16_lt (abs_mul_toNat_lt scale hyn)
  have hscale := scale.isLt
  rw [abs_lt] at hscaled ⊢
  rw [outputCode]
  omega

/-- The products of A alone and of A with C (R182). -/
theorem abs_dsfDen_terms_lt (a : BitVec 16) {c : Int} (hc : |c| ≤ 65536) :
    |(a.toNat : Int) * a.toNat| < 2 ^ 32 ∧ |2 * (a.toNat : Int) * c| < 2 ^ 34 := by
  have ha : |(a.toNat : Int)| < 2 ^ 16 := by rw [Nat.abs_cast]; exact_mod_cast a.isLt
  constructor
  · exact abs_mul_toNat_lt a ha
  · have hc' : |2 * c| < 2 ^ 18 := by rw [abs_mul, abs_two]; omega
    rw [mul_right_comm]
    exact abs_mul_toNat_lt a hc'

/-- Settles O44: every value is bounded by far less than 2^63, the products by the widths of their
factors. -/
theorem datapathFitsSixtyFourBits : Obligations.DatapathFitsSixtyFourBits := by
  rintro a s sin cos y yn hsin hcos hy hyn
  have hsin' : |sin| ≤ 65536 := hsin ▸ abs_sine_le _
  have hcos' : |cos| ≤ 65536 := hcos ▸ abs_sine_le _
  obtain ⟨hcoslo, hcoshi⟩ := abs_le.mp hcos'
  have hden : |dsfDen a cos| < 2 ^ 34 := by
    rw [abs_of_nonneg (zero_le_one.trans (one_le_dsfDen a hcoshi))]
    exact (dsfDen_le a hcoslo).trans_lt (by norm_num)
  obtain ⟨hsq, hterm⟩ := abs_dsfDen_terms_lt a hcos'
  have hy' : |y| < 2 ^ 33 := hy ▸ abs_rawSample_lt a s
  have hyn' : |yn| < 2 ^ 41 := hyn ▸ abs_normalise_lt s hy'
  have hcode : |sampleCode a s| < 2 ^ 41 :=
    abs_outputCode_lt _ (abs_normalise_lt s (abs_rawSample_lt a s))
  have fits {v : Int} {n : Nat} (hv : |v| < 2 ^ n) (hn : n ≤ 63) : -(2 ^ 63) ≤ v ∧ v < 2 ^ 63 := by
    obtain ⟨hlo, hhi⟩ := abs_lt.mp (hv.trans_le (pow_le_pow_right₀ (by norm_num) hn))
    exact ⟨hlo.le, hhi⟩
  simp only [List.forall_mem_cons]
  exact ⟨fits (n := 17) (by omega) (by decide), fits (n := 17) (by omega) (by decide),
    fits hsq (by decide), fits hterm (by decide),
    fits (n := 49) ((abs_dsfNum_le a hsin').trans_lt (by norm_num)) (by decide),
    fits hden (by decide), fits hy' (by decide), fits (abs_mul_toNat_lt _ hy') (by decide),
    fits hyn' (by decide), fits (abs_mul_toNat_lt _ hyn') (by decide), fits hcode (by decide),
    List.forall_mem_nil _⟩

/-- The raw shape value in R220's and R221's terms. -/
theorem rawShape_eq (s : State) : rawShape s =
    if s.ctrl.getLsbD 1 then s.shapeIn.toInt
    else if s.ctrl.getLsbD 0 then (s.envLevel.toNat : Int) else 65536 - s.envLevel.toNat := rfl

/-- Settles O50: the clamp of each source, which for a level within 1.0 cuts only 1.0 itself. -/
theorem shapeFollowsItsSource : Obligations.ShapeFollowsItsSource := by
  intro s hlevel
  have hshape : ((shapeA s).toNat : Int) = max 0 (min (rawShape s) 65535) := toNat_clampA _
  refine ⟨fun hsrc => ?_, fun hsrc hinv => ?_, fun hsrc hinv => ?_⟩
  · rw [shapeA, rawShape_eq, if_pos hsrc]
  · rw [rawShape_eq, hsrc, hinv, if_neg Bool.false_ne_true, if_pos rfl] at hshape
    omega
  · rw [rawShape_eq, hsrc, hinv, if_neg Bool.false_ne_true, if_neg Bool.false_ne_true] at hshape
    omega

section
variable (a : BitVec 16) (s : State)

/-- The DAC port after a sample: one more code when it is in range (R189, R191). -/
theorem nextSample_dacOut : (nextSample a s).dacOut =
    if codeInRange s.dacBits (sampleCode a s)
    then s.dacOut ++ [BitVec.ofInt 16 (sampleCode a s)] else s.dacOut := by
  rw [nextSample, advancePhase, State.setPhase_dacOut, emitOrDiscard, State.setLastA_dacBits]
  split <;> rfl

/-- LAST_CODE after a sample: the code that was emitted, if one was (R50, R189). -/
theorem nextSample_lastCode : (nextSample a s).lastCode =
    if codeInRange s.dacBits (sampleCode a s)
    then BitVec.ofInt 16 (sampleCode a s) else s.lastCode := by
  rw [nextSample, advancePhase, State.setPhase_lastCode, emitOrDiscard, State.setLastA_dacBits]
  split <;> rfl

/-- Of what the envelope step writes the code of a sample depends on A alone. -/
theorem sampleCode_envStep (p : Config.EnvParams) :
    sampleCode a (envStep p s) = sampleCode a s := by
  obtain ⟨m, l, n, h⟩ := envStep_eq_setEnv s p
  rw [h]; rfl

/-- The raw sample in the rules' numbers (R181 to R183). -/
theorem rawSample_eq : rawSample a s =
    Int.tdiv ((2 ^ 32 - (a.toNat : Int) ^ 2) * sine (BitVec.ofNat 8 (s.carAcc.toNat / 2 ^ 24)))
      (2 ^ 32 + (a.toNat : Int) ^ 2 -
        2 * a.toNat * sine (BitVec.ofNat 8 ((s.modAcc.toNat / 2 ^ 24 + 64) % 256))) := by
  rw [rawSample, tableIndex_eq, cosine_tableIndex, pow_two (a.toNat : Int)]
  rfl

/-- The normalised sample in the rules' numbers (R186, R187). -/
theorem normalise_eq (y : Int) : normalise a y s =
    if s.ctrl.getLsbD 2
    then Int.tdiv (y * (s.norm.read (a.toNat * 100 / 65536)).toNat) 65536 else y := rfl

/-- An active tick leaves all but its registers and the DAC port (R250). -/
theorem activeTick_keeps (p : Config.EnvParams) : KeepsNorm s (activeTick p s) ∧
    (activeTick p s).rspOut = s.rspOut ∧ KeepsInputs s (activeTick p s) := by
  simp [KeepsNorm, KeepsInputs, activeTick]

end

/-- What is kept but for some registers is kept but for more. -/
theorem KeepsRegs.mono {rs rs' : List Reg} {s t : State} (h : KeepsRegs rs s t) (hsub : rs ⊆ rs') :
    KeepsRegs rs' s t :=
  fun r hr => h r fun hmem => hr (hsub hmem)

/-- Settles O26: the tick is the sample of the stepped envelope with the A of the statement, and its
code is the statement's. -/
theorem activeTickMakesOneSample : Obligations.ActiveTickMakesOneSample := by
  rintro s _ a x sin cos y yn code hactive rfl hx ha rfl rfl hy hyn hcode
  have hshape : shapeA (envStep Config.env s) = a := by
    refine clampA_eq (ha.trans ?_)
    rw [rawShape_eq, envStep_ctrl, envStep_shapeIn, hx]
  have htick : activeTick Config.env s = nextSample a (envStep Config.env s) := by
    rw [activeTick, hshape]
  have hsample : sampleCode a s = code := by
    rw [← rawSample_eq] at hy
    rw [← normalise_eq, hy] at hyn
    rw [hcode, hyn, sampleCode, outputCode, scaleQ16_eq]
  refine ⟨_, exec_tick_of_active hactive, ?_, ?_, ?_, ?_, ?_, activeTick_envMode _ s,
    activeTick_envLevel _ s, activeTick_envStepcnt _ s,
    (activeTick_keepsRegs _ s).mono (by decide), activeTick_keeps s _⟩ <;> rw [htick]
  · simp only [nextSample_dacOut, sampleCode_envStep, hsample, codeInRange_iff, envStep_dacBits,
      envStep_dacOut]
  · simp only [nextSample_lastCode, sampleCode_envStep, hsample, codeInRange_iff, envStep_dacBits,
      envStep_lastCode]
  · exact nextSample_lastA _ a
  · rw [nextSample_carAcc, envStep_carAcc, envStep_carStep]
  · rw [nextSample_modAcc, envStep_modAcc, envStep_modStep]

/-- Settles O43: the wrap is the addition of 32-bit words, and the index a quotient below 256. -/
theorem phasesAdvanceModulo : Obligations.PhasesAdvanceModulo := by
  refine ⟨fun s hactive => ?_, fun acc => ?_⟩
  · have hcar : (activeTick Config.env s).carAcc = s.carAcc + s.carStep := by simp [activeTick]
    have hmod : (activeTick Config.env s).modAcc = s.modAcc + s.modStep := by simp [activeTick]
    refine ⟨_, exec_tick_of_active hactive, by rw [hcar, BitVec.toNat_add],
      by rw [hmod, BitVec.toNat_add], fun hacc hstep => ?_⟩
    rw [hcar, hacc, hstep]
    decide
  · have hlt := acc.isLt
    rw [tableIndex_eq, BitVec.toNat_ofNat, Nat.mod_eq_of_lt (by omega)]

end Sys2Proof.Machine
end

section
/-! PROOFS. The lengths of Attack and Decay (R217, R223, 43_envelope): where the envelope stands
after each tick at a constant rate. -/

namespace Sys2Proof.Machine

section
variable {n r k : Nat}

/-- The quotient rounded up moves on where the divisor divides. -/
theorem ceil_succ (hr : 1 ≤ r) (n : Nat) :
    (n + 1 + r - 1) / r = (n + r - 1) / r + if n % r = 0 then 1 else 0 := by
  have hdvd : r ∣ n + r - 1 + 1 ↔ n % r = 0 := by
    rw [Nat.sub_add_cancel (by omega), Nat.dvd_add_self_right, Nat.dvd_iff_mod_eq_zero]
  rw [show n + 1 + r - 1 = n + r - 1 + 1 by omega, Nat.succ_div]
  simp only [hdvd]

theorem ceil_le (hr : 1 ≤ r) (h : n ≤ k * r) : (n + r - 1) / r ≤ k := by
  rw [← Nat.lt_succ_iff, Nat.div_lt_iff_lt_mul hr, Nat.succ_mul]
  omega

theorem ceil_mul (hr : 1 ≤ r) (k : Nat) : (k * r + r - 1) / r = k := by
  rw [Nat.add_sub_assoc hr, Nat.mul_comm, Nat.mul_add_div hr, Nat.div_eq_of_lt (by omega),
    Nat.add_zero]

end

/-- What holds at the start and is carried on by each of `limit` active ticks holds after any number
of them. -/
theorem runTicks_induction {P : Nat → State → Prop} {limit : Nat} {s : State} (h0 : P 0 s)
    (hstep : ∀ n t, n < limit → P n t → t.active = true ∧ P (n + 1) (activeTick Config.env t))
    (n : Nat) (hn : n ≤ limit) : ∃ t, runTicks n s = .next t ∧ P n t := by
  induction n with
  | zero => exact ⟨s, rfl, h0⟩
  | succ n ih =>
    obtain ⟨t, ht, hP⟩ := ih (by omega)
    obtain ⟨hactive, hP'⟩ := hstep n t hn hP
    exact ⟨_, runTicks_succ ht hactive, hP'⟩

section
variable (p : Config.EnvParams) (s : State)

@[simp] theorem activeTick_active : (activeTick p s).active = s.active := by
  simp [activeTick, State.active]
@[simp] theorem activeTick_attackRate : (activeTick p s).attackRate = s.attackRate := by
  simp [activeTick]
@[simp] theorem activeTick_decayRate : (activeTick p s).decayRate = s.decayRate := by
  simp [activeTick]
@[simp] theorem activeTick_sustainLevel : (activeTick p s).sustainLevel = s.sustainLevel := by
  simp [activeTick]

end

/-- The counter of ticks below its wrap (R49, 10_state). -/
theorem toNat_succ {c : BitVec 32} {n : Nat} (hc : c.toNat = n) (hn : n + 1 < 2 ^ 32) :
    (c + 1#32).toNat = n + 1 := by
  rw [BitVec.toNat_add, hc, BitVec.toNat_ofNat]
  omega

/-- A sounding note that has been in Attack at the rate `ra` for `n` ticks. -/
structure AttackAt (ra n : Nat) (t : State) : Prop where
  active : t.active = true
  rate : max t.attackRate.toNat 1 = ra
  mode : t.envMode = .attack
  level : t.envLevel.toNat = 256 * ((n + ra - 1) / ra)
  count : t.envStepcnt.toNat = n

namespace AttackAt
variable {ra n : Nat} {t : State} (h : AttackAt ra n t)
include h

theorem one_le_rate : 1 ≤ ra := h.rate ▸ le_max_right _ _

/-- A counter that the rates can reach does not wrap. -/
theorem rate_le : ra ≤ 65535 := by
  have hlt := t.attackRate.isLt
  rw [← h.rate]
  omega

/-- The level a tick reaches, short of 1.0 or at it. -/
theorem attackLevel_eq_ceil (hn : n ≤ 255 * ra) :
    attackLevel Config.env t = 256 * ((n + 1 + ra - 1) / ra) := by
  have hceil := ceil_le h.one_le_rate hn
  rw [attackLevel_eq, h.rate, h.count, h.level, ceil_succ h.one_le_rate, Config.env_step,
    Config.env_max]
  split <;> omega

/-- Up to 255 steps of the level Attack goes on (R214). -/
theorem tick (hn : n < 255 * ra) : AttackAt ra (n + 1) (activeTick Config.env t) := by
  have hlevel := h.attackLevel_eq_ceil hn.le
  have hceil := ceil_le (n := n + 1) h.one_le_rate hn
  have hrate := h.rate_le
  have hstep : envStep Config.env t =
      t.setEnv .attack (BitVec.ofNat 17 (attackLevel Config.env t)) (t.envStepcnt + 1#32) := by
    rw [envStep_attack h.mode, attackStep_of_lt_max]
    rw [hlevel, Config.env_max]
    omega
  refine ⟨by rw [activeTick_active, h.active], by rw [activeTick_attackRate, h.rate], ?_, ?_, ?_⟩
  · rw [activeTick_envMode, hstep, State.setEnv_envMode]
  · rw [activeTick_envLevel, hstep, State.setEnv_envLevel, hlevel, toNat_ofNat_of_lt (by omega)]
  · rw [activeTick_envStepcnt, hstep, State.setEnv_envStepcnt, toNat_succ h.count (by omega)]

/-- The tick after 255 steps reaches 1.0 and hands over to Decay (R215). -/
theorem last (hn : n = 255 * ra) : (activeTick Config.env t).envMode = .decay ∧
    (activeTick Config.env t).envLevel.toNat = 65536 ∧
    (activeTick Config.env t).envStepcnt = 0#32 := by
  have hlevel : attackLevel Config.env t = 65536 := by
    rw [h.attackLevel_eq_ceil hn.le, ceil_succ h.one_le_rate, hn, ceil_mul h.one_le_rate,
      Nat.mul_mod_left]
    rfl
  rw [activeTick_envMode, activeTick_envLevel, activeTick_envStepcnt, envStep_attack h.mode,
    attackStep_of_max_le (by rw [hlevel, Config.env_max]), hlevel]
  exact ⟨rfl, rfl, rfl⟩

end AttackAt

/-- Settles O52: from NOTEON's restart each tick short of 255 steps of the level is one of Attack,
and the next is its last. -/
theorem attackLengthIsExact : Obligations.AttackLengthIsExact := by
  intro cmd note vel s ra hra
  refine ⟨_, rfl, ?_⟩
  set s0 := ((s.setEnv .attack 0#17 0#32).setActiveNote note).setNoteState
    (noteStateOf true cmd note vel)
  have hstart : AttackAt ra 0 s0 :=
    ⟨noteStateOf_active true cmd note vel, hra.symm, rfl, by
      rw [Nat.div_eq_of_lt (by omega)]; rfl, rfl⟩
  have hrun := runTicks_induction (P := AttackAt ra) hstart fun n t hn h => ⟨h.active, h.tick hn⟩
  refine ⟨fun n hn => ?_, ?_⟩
  · obtain ⟨t, ht, h⟩ := hrun n hn
    exact ⟨t, ht, h.mode, h.level, h.count⟩
  · obtain ⟨t, ht, h⟩ := hrun _ le_rfl
    exact ⟨_, runTicks_succ ht h.active, h.last rfl⟩

/-- A sounding note that has been in Decay from 1.0 at the rate `rd` for `n` ticks, with the sustain
level at `sus`. -/
structure DecayAt (rd sus n : Nat) (t : State) : Prop where
  active : t.active = true
  rate : max t.decayRate.toNat 1 = rd
  sustain : t.sustainLevel.toNat = sus
  mode : t.envMode = .decay
  level : t.envLevel.toNat = 65536 - 256 * ((n + rd - 1) / rd)
  count : t.envStepcnt.toNat = n

namespace DecayAt
variable {rd sus n : Nat} {t : State} (h : DecayAt rd sus n t)
include h

theorem one_le_rate : 1 ≤ rd := h.rate ▸ le_max_right _ _

/-- The level a tick reaches, natural subtraction cutting both sides at 0. -/
theorem decayLevel_eq_ceil :
    decayLevel Config.env t = 65536 - 256 * ((n + 1 + rd - 1) / rd) := by
  rw [decayLevel_eq, h.rate, h.count, h.level, ceil_succ h.one_le_rate, Config.env_step]
  split <;> omega

/-- As long as the level reached lies above the sustain level Decay goes on (R216). -/
theorem tick (hn : n + 1 < 2 ^ 32) (hsus : sus < 65536 - 256 * ((n + 1 + rd - 1) / rd)) :
    DecayAt rd sus (n + 1) (activeTick Config.env t) := by
  have hlevel := h.decayLevel_eq_ceil
  have hstep : envStep Config.env t =
      t.setEnv .decay (BitVec.ofNat 17 (decayLevel Config.env t)) (t.envStepcnt + 1#32) := by
    rw [envStep_decay h.mode, decayStep_of_sustain_lt]
    rwa [h.sustain, hlevel]
  refine ⟨by rw [activeTick_active, h.active], by rw [activeTick_decayRate, h.rate],
    by rw [activeTick_sustainLevel, h.sustain], ?_, ?_, ?_⟩
  · rw [activeTick_envMode, hstep, State.setEnv_envMode]
  · rw [activeTick_envLevel, hstep, State.setEnv_envLevel, toNat_ofNat_of_lt decayLevel_lt, hlevel]
  · rw [activeTick_envStepcnt, hstep, State.setEnv_envStepcnt, toNat_succ h.count hn]

/-- The tick whose level is no longer above the sustain level keeps that level and hands over to
Sustain (R217). -/
theorem last (hsus : 65536 - 256 * ((n + 1 + rd - 1) / rd) ≤ sus) :
    (activeTick Config.env t).envMode = .sustain ∧
    (activeTick Config.env t).envLevel.toNat = 65536 - 256 * ((n + 1 + rd - 1) / rd) ∧
    (activeTick Config.env t).envStepcnt = 0#32 := by
  rw [← h.decayLevel_eq_ceil] at hsus ⊢
  rw [activeTick_envMode, activeTick_envLevel, activeTick_envStepcnt, envStep_decay h.mode,
    decayStep_of_le_sustain (by rwa [h.sustain])]
  exact ⟨rfl, toNat_ofNat_of_lt decayLevel_lt, rfl⟩

end DecayAt

/-- Settles O53: the level reached stays above the sustain level for `j - 1` steps, and the tick
after them takes step `j`, which does not. -/
theorem decayLengthIsExact : Obligations.DecayLengthIsExact := by
  intro s rd sus j hactive hmode hlevel hcnt hrd hsus hle hj
  have hone : 1 ≤ rd := hrd ▸ le_max_right _ _
  have hmax : rd ≤ 65535 := by have hlt := s.decayRate.isLt; omega
  have hstart : DecayAt rd sus 0 s :=
    ⟨hactive, hrd.symm, hsus.symm, hmode, by rw [hlevel, Nat.div_eq_of_lt (by omega)]; rfl,
      by rw [hcnt]; rfl⟩
  have hrun := runTicks_induction (P := DecayAt rd sus) (limit := (j - 1) * rd) hstart
    fun n t hn h => ⟨h.active, ?_⟩
  · refine ⟨fun n hn => ?_, ?_⟩
    · obtain ⟨t, ht, h⟩ := hrun n hn
      exact ⟨t, ht, h.mode, h.level⟩
    · obtain ⟨t, ht, h⟩ := hrun _ le_rfl
      have hlast : ((j - 1) * rd + 1 + rd - 1) / rd = j := by
        rw [ceil_succ hone, ceil_mul hone, Nat.mul_mod_left, if_pos rfl]
        omega
      have hdone := h.last (by rw [hlast]; omega)
      rw [hlast] at hdone
      exact ⟨_, runTicks_succ ht h.active, hdone⟩
  · have hceil := ceil_le (n := n + 1) hone hn
    have hsteps : 1 ≤ j - 1 := Nat.pos_of_lt_mul_right hn
    have hcount : (j - 1) * rd ≤ 255 * 65535 := Nat.mul_le_mul (by omega) hmax
    exact h.tick (by omega) (by omega)

end Sys2Proof.Machine
end

section
/-! PROOFS. What the DAC port hears (R252, 44_note_and_tick; R50, 10_state) and what it does not
(R39, R40, R50, R51). -/

namespace Sys2Proof.Machine

variable {s t u : State}

/-- A register's reading gives its field back. -/
theorem zeroExtend_injective {n : Nat} {v w : BitVec n} (hn : n ≤ 32)
    (h : v.setWidth 32 = w.setWidth 32) : v = w := by
  apply BitVec.eq_of_toNat_eq
  rw [← BitVec.toNat_setWidth_of_le hn, h, BitVec.toNat_setWidth_of_le hn]

/-- A command other than an active TICK leaves the DAC port and LAST_CODE. -/
theorem Effect.dac_cases {i : Instr} (he : Effect i s t) :
    (t.dacOut = s.dacOut ∧ t.lastCode = s.lastCode) ∨
      (i = .tick ∧ s.active = true ∧ t = activeTick Config.env s) := by
  cases he with
  | illegal => exact .inl ⟨raiseIllegal_dacOut s _ _, raiseIllegal_lastCode s _ _⟩
  | tickActive ha => exact .inr ⟨rfl, ha, rfl⟩
  | @wrreg _ _ r _ _ _ hw =>
    obtain ⟨hregs, -, ⟨hdac, -⟩, -⟩ := writeReg_writesOnly hw
    have hne : Reg.lastCode ∉ [r] := by
      rintro hmem
      cases List.mem_singleton.mp hmem
      cases hw
    exact .inl ⟨hdac, zeroExtend_injective (by decide) (hregs _ hne)⟩
  | _ => exact .inl ⟨rfl, rfl⟩

/-- An active tick writes one code within the depth and records it, or neither (R189, R252). -/
theorem activeTick_dac_cases (p : Config.EnvParams) (hdepth : s.dacBits.toNat ≤ 16) :
    ((activeTick p s).dacOut = s.dacOut ∧ (activeTick p s).lastCode = s.lastCode) ∨
      ∃ code : BitVec 16, (activeTick p s).dacOut = s.dacOut ++ [code] ∧
        (activeTick p s).lastCode = code ∧ code.toNat ≤ 2 ^ s.dacBits.toNat - 1 := by
  rw [activeTick, nextSample_dacOut, nextSample_lastCode, envStep_dacBits, envStep_dacOut,
    envStep_lastCode]
  generalize sampleCode _ _ = code
  by_cases hcode : codeInRange s.dacBits code = true
  · have hpow : (2 : Int) ^ s.dacBits.toNat ≤ 2 ^ 16 := pow_le_pow_right₀ (by norm_num) hdepth
    have hpow' : 1 ≤ 2 ^ s.dacBits.toNat := Nat.one_le_two_pow
    obtain ⟨hlo, hhi⟩ := codeInRange_iff.mp hcode
    refine .inr ⟨BitVec.ofInt 16 code, if_pos hcode, if_pos hcode, ?_⟩
    zify [hpow']
    rw [BitVec.toNat_ofInt, Int.toNat_of_nonneg (by omega), Int.emod_eq_of_lt hlo (by omega)]
    exact hhi
  · exact .inl ⟨if_neg hcode, if_neg hcode⟩

/-- Settles O57: only an active TICK is heard, its word is the one word of TICK, and the range check
bounds its code. -/
theorem dacWritesStayInRange : Obligations.DacWritesStayInRange := by
  intro w s hinv
  obtain ⟨t, ht, ⟨c, -, rfl⟩ | ⟨i, hi, he⟩⟩ := runWord_cases w s
  · exact ⟨_, ht, .inl ⟨raiseIllegal_dacOut s _ c, raiseIllegal_lastCode s _ c⟩⟩
  · refine ⟨t, ht, ?_⟩
    obtain hkeep | ⟨rfl, hactive, rfl⟩ := he.dac_cases
    · exact .inl hkeep
    · refine (activeTick_dac_cases Config.env hinv.depthHigh).imp_right ?_
      rintro ⟨code, hdac, hlast, hle⟩
      exact ⟨code, hdac, hlast, hle, (encode_of_decode hi).symm, hactive⟩

/-- `s` and `t` hold the same in every field that a sample, an envelope step or a phase step
reads. -/
structure SoundsAlike (s t : State) : Prop where
  ctrl : s.ctrl = t.ctrl
  attackRate : s.attackRate = t.attackRate
  decayRate : s.decayRate = t.decayRate
  sustainLevel : s.sustainLevel = t.sustainLevel
  shapeIn : s.shapeIn = t.shapeIn
  activeNote : s.activeNote = t.activeNote
  sampleRate : s.sampleRate = t.sampleRate
  dacBits : s.dacBits = t.dacBits
  outScale : s.outScale = t.outScale
  carStep : s.carStep = t.carStep
  modStep : s.modStep = t.modStep
  carAcc : s.carAcc = t.carAcc
  modAcc : s.modAcc = t.modAcc
  envMode : s.envMode = t.envMode
  envLevel : s.envLevel = t.envLevel
  envStepcnt : s.envStepcnt = t.envStepcnt
  active : s.active = t.active
  norm : ∀ k, s.norm.read k = t.norm.read k
  dacOut : s.dacOut = t.dacOut

/-- The four codes of ENV_MODE are distinct (R47). -/
theorem EnvMode.code_injective {m m' : EnvMode} : m.code = m'.code → m = m' := by
  cases m <;> cases m' <;> decide

/-- Registers that read alike hold the same fields. -/
theorem SameSound.soundsAlike (h : SameSound s t) : SoundsAlike s t := by
  obtain ⟨hregs, hactive, hnorm, hdac⟩ := h
  exact {
    ctrl := zeroExtend_injective (by decide) (hregs .ctrl (by decide))
    attackRate := zeroExtend_injective (by decide) (hregs .attackRate (by decide))
    decayRate := zeroExtend_injective (by decide) (hregs .decayRate (by decide))
    sustainLevel := zeroExtend_injective (by decide) (hregs .sustainLevel (by decide))
    shapeIn := hregs .shapeIn (by decide)
    activeNote := zeroExtend_injective (by decide) (hregs .activeNote (by decide))
    sampleRate := hregs .sampleRate (by decide)
    dacBits := zeroExtend_injective (by decide) (hregs .dacBits (by decide))
    outScale := zeroExtend_injective (by decide) (hregs .outScale (by decide))
    carStep := hregs .carStep (by decide)
    modStep := hregs .modStep (by decide)
    carAcc := hregs .carAcc (by decide)
    modAcc := hregs .modAcc (by decide)
    envMode := EnvMode.code_injective
      (zeroExtend_injective (by decide) (hregs .envMode (by decide)))
    envLevel := zeroExtend_injective (by decide) (hregs .envLevel (by decide))
    envStepcnt := hregs .envStepcnt (by decide)
    active := hactive
    norm := hnorm
    dacOut := hdac }

namespace SoundsAlike

variable (h : SoundsAlike s t)
include h

/-- The same fields read alike. -/
theorem sameSound : SameSound s t := by
  refine ⟨fun r hr => ?_, h.active, h.norm, h.dacOut⟩
  cases r with
  | status | noteState | lastCode | lastA => simp at hr
  | ctrl => simp only [readReg, h.ctrl]
  | attackRate => simp only [readReg, h.attackRate]
  | decayRate => simp only [readReg, h.decayRate]
  | sustainLevel => simp only [readReg, h.sustainLevel]
  | shapeIn => exact h.shapeIn
  | activeNote => simp only [readReg, h.activeNote]
  | sampleRate => exact h.sampleRate
  | dacBits => simp only [readReg, h.dacBits]
  | outScale => simp only [readReg, h.outScale]
  | carStep => exact h.carStep
  | modStep => exact h.modStep
  | carAcc => exact h.carAcc
  | modAcc => exact h.modAcc
  | envMode => simp only [readReg, h.envMode]
  | envLevel => simp only [readReg, h.envLevel]
  | envStepcnt => exact h.envStepcnt

theorem phaseStep_eq (f : BitVec 24) : phaseStep f s = phaseStep f t := by
  rw [phaseStep, phaseStep, phaseDivisor_eq, phaseDivisor_eq, h.sampleRate, h.ctrl]

theorem shapeA_eq : shapeA s = shapeA t := by
  rw [shapeA, shapeA, rawShape_eq, rawShape_eq, h.ctrl, h.shapeIn, h.envLevel]

theorem sampleCode_eq (a : BitVec 16) : sampleCode a s = sampleCode a t := by
  rw [sampleCode, sampleCode, rawSample, rawSample, normalise_eq, normalise_eq, h.ctrl, h.norm,
    h.carAcc, h.modAcc, h.outScale]

theorem setEnv (m : EnvMode) (l : BitVec 17) (n : BitVec 32) :
    SoundsAlike (s.setEnv m l n) (t.setEnv m l n) :=
  { h with envMode := rfl, envLevel := rfl, envStepcnt := rfl }

/-- The envelope steps alike. -/
theorem envStep (p : Config.EnvParams) : SoundsAlike (envStep p s) (envStep p t) := by
  have hm' := h.envMode
  cases hm : s.envMode <;> rw [hm] at hm'
  case attack =>
    have hlevel : attackLevel p s = attackLevel p t := by
      rw [attackLevel_eq, attackLevel_eq, h.envStepcnt, h.attackRate, h.envLevel]
    rw [envStep_attack hm, envStep_attack hm'.symm, attackStep, attackStep, hlevel, h.envStepcnt]
    split <;> exact h.setEnv _ _ _
  case decay =>
    have hlevel : decayLevel p s = decayLevel p t := by
      rw [decayLevel_eq, decayLevel_eq, h.envStepcnt, h.decayRate, h.envLevel]
    rw [envStep_decay hm, envStep_decay hm'.symm, decayStep, decayStep, hlevel, h.envStepcnt,
      h.sustainLevel]
    split <;> exact h.setEnv _ _ _
  case sustain =>
    rw [envStep_sustain hm, envStep_sustain hm'.symm, sustainStep, sustainStep, h.envMode,
      h.sustainLevel, h.envStepcnt]
    exact h.setEnv _ _ _
  case release => rwa [envStep_release hm, envStep_release hm'.symm]

/-- A code is emitted or discarded alike (R189). -/
theorem emitOrDiscard (code : Int) : SoundsAlike (emitOrDiscard code s) (emitOrDiscard code t) := by
  rw [Machine.emitOrDiscard, Machine.emitOrDiscard, h.dacBits]
  split
  · exact { h with dacOut := congrArg (· ++ _) h.dacOut }
  · exact h

/-- A sample is made alike (R191). -/
theorem nextSample (a : BitVec 16) : SoundsAlike (nextSample a s) (nextSample a t) := by
  have ha : SoundsAlike (s.setLastA a) (t.setLastA a) := { h with }
  have hemit := ha.emitOrDiscard (sampleCode a t)
  rw [Machine.nextSample, Machine.nextSample, h.sampleCode_eq]
  exact { hemit with
    carAcc := congrArg₂ (· + ·) hemit.carAcc hemit.carStep
    modAcc := congrArg₂ (· + ·) hemit.modAcc hemit.modStep }

theorem activeTick (p : Config.EnvParams) : SoundsAlike (activeTick p s) (activeTick p t) := by
  rw [Machine.activeTick, Machine.activeTick, (h.envStep p).shapeA_eq]
  exact (h.envStep p).nextSample _

theorem raiseIllegal (op : BitVec 8) (c : Cause) :
    SoundsAlike (raiseIllegal op c s) (raiseIllegal op c t) := by
  unfold Machine.raiseIllegal
  split <;> exact { h with }

theorem writeReg {r : Reg} {v : BitVec 32} (hw : writeReg r v s = some u) :
    ∃ u', writeReg r v t = some u' ∧ SoundsAlike u u' := by
  obtain ⟨rfl, rfl⟩ | ⟨rfl, rfl⟩ | ⟨rfl, rfl⟩ | ⟨rfl, rfl⟩ | ⟨rfl, rfl⟩ | ⟨rfl, rfl⟩ :=
    writeReg_some hw
  · exact ⟨_, rfl, { h with ctrl := rfl }⟩
  · exact ⟨_, rfl, { h with attackRate := rfl }⟩
  · exact ⟨_, rfl, { h with decayRate := rfl }⟩
  · exact ⟨_, rfl, { h with sustainLevel := rfl }⟩
  · exact ⟨_, rfl, { h with shapeIn := rfl }⟩
  · refine ⟨_, rfl, ?_⟩
    unfold writeStatus
    split
    · exact { h with }
    · exact h

end SoundsAlike

/-- A read after a write (R273, R274, 45_register_access). -/
theorem Memory.read_write (m : Memory) (j k : Nat) (v : BitVec 24) :
    (m.write k v).read j = if j = k then v else m.read j := by
  split_ifs with hj
  · rw [hj, Memory.read_write_same]
  · exact Memory.read_write_other m v hj

/-- A command is heard alike from states that sound alike. -/
theorem Effect.soundsAlike {i : Instr} (he : Effect i s u) (h : SoundsAlike s t) :
    ∃ u', exec i t = .next u' ∧ SoundsAlike u u' := by
  cases he with
  | illegal _ hc => exact ⟨_, exec_illegal t hc, h.raiseIllegal _ _⟩
  | nop => exact ⟨_, rfl, h⟩
  | init _ hl =>
    exact ⟨_, exec_init_of_legal t hl, { h with
      sampleRate := rfl, dacBits := rfl, outScale := rfl, carAcc := rfl, modAcc := rfl }⟩
  | setfreqBoth fc fm =>
    rw [h.phaseStep_eq fc, h.phaseStep_eq fm]
    have hsteps : SoundsAlike ((s.setCarStep (phaseStep fc t)).setModStep (phaseStep fm t))
        ((t.setCarStep (phaseStep fc t)).setModStep (phaseStep fm t)) :=
      { h with carStep := rfl, modStep := rfl }
    exact ⟨_, rfl, { hsteps with carAcc := rfl, modAcc := rfl }⟩
  | setfreqMod _ fm | setmod fm =>
    rw [h.phaseStep_eq fm]
    exact ⟨_, rfl, { h with modStep := rfl }⟩
  | noteon =>
    exact ⟨_, rfl, { h.setEnv .attack 0#17 0#32 with activeNote := rfl, active := rfl }⟩
  | noteoff cmd note vel =>
    rw [h.activeNote, h.active]
    exact ⟨_, rfl, { h with active := rfl }⟩
  | tickActive ha => exact ⟨_, exec_tick_of_active (h.active.symm.trans ha), h.activeTick _⟩
  | tickInactive ha =>
    exact ⟨_, exec_tick_of_not_active (by rw [← h.active, ha]; decide), h⟩
  | wrreg hr hw =>
    obtain ⟨u', hu', hsound⟩ := h.writeReg hw
    exact ⟨u', exec_wrreg_of_writeReg hr hu', hsound⟩
  | rdreg _ hr => exact ⟨_, exec_rdreg_of_ofIndex t hr, { h with }⟩
  | @wrnorm idx v _ hl =>
    refine ⟨_, exec_wrnorm_of_le v t (normLegal_iff.mp hl), { h with norm := fun k => ?_ }⟩
    rw [State.setNorm_norm, State.setNorm_norm, Memory.read_write, Memory.read_write, h.norm]
  | rdnorm _ hl => exact ⟨_, exec_rdnorm_of_le t (normLegal_iff.mp hl), { h with }⟩

/-- So is a word. -/
theorem runWord_soundsAlike (w : Word) (h : SoundsAlike s t) :
    ∃ s' t', runWord w s = .next s' ∧ runWord w t = .next t' ∧ SoundsAlike s' t' := by
  obtain ⟨s', hs', ⟨c, hc, rfl⟩ | ⟨i, hi, he⟩⟩ := runWord_cases w s
  · exact ⟨_, _, hs', runWord_of_decode_error t hc, h.raiseIllegal _ c⟩
  · obtain ⟨t', ht', hsound⟩ := he.soundsAlike h
    exact ⟨s', t', hs', (runWord_of_decode_ok t hi).trans ht', hsound⟩

/-- So are any number of words. -/
theorem runWords_soundsAlike (ws : List Word) (h : SoundsAlike s t) :
    ∃ s' t', runWords ws s = .next s' ∧ runWords ws t = .next t' ∧ SoundsAlike s' t' := by
  induction ws generalizing s t with
  | nil => exact ⟨s, t, rfl, rfl, h⟩
  | cons w ws ih =>
    obtain ⟨s₁, t₁, hs, ht, h₁⟩ := runWord_soundsAlike w h
    obtain ⟨s', t', hs', ht', h'⟩ := ih h₁
    exact ⟨s', t', (runWords_cons ws hs).trans hs', (runWords_cons ws ht).trans ht', h'⟩

/-- Settles O60: states that sound alike are taken by every word to states that sound alike. -/
theorem observationsAreNotHeard : Obligations.ObservationsAreNotHeard := by
  intro ws s t h
  obtain ⟨s', t', hs', ht', h'⟩ := runWords_soundsAlike ws h.soundsAlike
  exact ⟨s', t', hs', ht', h'.sameSound, h'.dacOut⟩

end Sys2Proof.Machine
end
